-- ==== Sys2Proof/Word.lean ====
section
/-! DEFINITION. The word types of QRSB (00_scope.md R6, R7): 32-bit register values, field elements and codewords as
bytes, bitstreams as finite sequences of bits, first appended bit first. -/

namespace Sys2Proof

/-- A register value (R6: 32 bits, bit 0 least significant, unsigned). -/
abbrev Word := BitVec 32

/-- A codeword or an element of GF(256) (R77). -/
abbrev Byte := BitVec 8

/-- A bitstream (R7): element 0 is the bit appended first; true is 1. -/
abbrev Bits := List Bool

end Sys2Proof
end

