-- ==== Sys2Proof/Syntax.lean ====
section
/-! DEFINITION. The commands of QRSB: one constructor per row of the opcode map (30_encoding.md R62), with the
command-word operands of R60. The operands that come from ARG0 to ARG2 are no part of the word. -/

namespace Sys2Proof

/-- A bitstream buffer index, the 2-bit fields SD and SS (R58). -/
abbrev BufIdx := Fin 4

/-- A mask index, the 3-bit field M (R58). -/
abbrev MaskIdx := Fin 8

/-- The command set (R62). -/
inductive Instr where
  | nop
  | bsClear (sd : BufIdx)
  | bsAppendBits (sd : BufIdx) (n : Nat)
  | bsAppendBools (sd : BufIdx) (b : Bool)
  | bsAppend (sd ss : BufIdx)
  | bsSubstr (sd ss : BufIdx)
  | bsByteAt (ss : BufIdx)
  | gfMul
  | gfExp
  | gfLog
  | rsGenpoly (sd : BufIdx)
  | rsEncode (sd ss : BufIdx)
  | symInit
  | symFunction
  | symPlace (ss : BufIdx)
  | symApplyMask (m : MaskIdx)
  | symScore
  | symSelectMask
  deriving DecidableEq, Repr

end Sys2Proof
end

