-- ==== Sys2Proof/WellFormed.lean ====
section
/-! DEFINITION. Which commands have a command word: the one operand whose type does not bound it, the bit count N of
BS_APPEND_BITS, fits its 6-bit field (30_encoding.md R58). N = 33 to 63 is well formed: it is decoded and ends with
OPERAND (R63, R72). -/

namespace Sys2Proof

/-- The operands fit the fields of the command word (R58). -/
def Instr.wellFormed : Instr → Bool
  | .nop => true
  | .bsClear _ => true
  | .bsAppendBits _ n => n < 64
  | .bsAppendBools _ _ => true
  | .bsAppend _ _ => true
  | .bsSubstr _ _ => true
  | .bsByteAt _ => true
  | .gfMul => true
  | .gfExp => true
  | .gfLog => true
  | .rsGenpoly _ => true
  | .rsEncode _ _ => true
  | .symInit => true
  | .symFunction => true
  | .symPlace _ => true
  | .symApplyMask _ => true
  | .symScore => true
  | .symSelectMask => true

end Sys2Proof
end

