-- ==== Sys2Proof/Decode.lean ====
section
/-! DEFINITION. Decoding a command word, by the match and mask of each row of 30_encoding.md R62, and the encoder, by
the field layout of R58. A word of no row is rejected by name; the engine ends it with ILLEGAL (R59, R63). -/

namespace Sys2Proof

/-- Why a word is no command (R63). -/
inductive DecodeError where
  /-- The OP byte is that of no row. -/
  | unknownOpcode
  /-- The OP byte is a row's, but a bit outside that row's fields is set (R59). -/
  | unusedFieldSet
  deriving DecidableEq, Repr

/-- `v[lo + len - 1 : lo]` as a number (R6). -/
def wordField (v : Word) (lo len : Nat) : Nat := (v >>> lo).toNat % 2 ^ len

/-- Field SD, bits 9:8 (R58). -/
def fieldSD (w : Word) : BufIdx := Fin.ofNat 4 (wordField w 8 2)

/-- Field SS, bits 11:10 (R58). -/
def fieldSS (w : Word) : BufIdx := Fin.ofNat 4 (wordField w 10 2)

/-- Field B, bit 12 (R58). -/
def fieldB (w : Word) : Bool := w.getLsbD 12

/-- Field N, bits 21:16 (R58). -/
def fieldN (w : Word) : Nat := wordField w 16 6

/-- Field M, bits 18:16 (R58). -/
def fieldM (w : Word) : MaskIdx := Fin.ofNat 8 (wordField w 16 3)

/-- A row of R62's match-and-mask table: `w` is the command when `w &&& mask = pattern`. -/
structure OpcodeRow where
  pattern : Word
  mask : Word
  build : Word → Instr

/-- The table of R62, in its order. -/
def opcodeRows : List OpcodeRow :=
  [ ⟨0x00000000, 0xFFFFFFFF, fun _ => .nop⟩,
    ⟨0x00000001, 0xFFFFFCFF, fun w => .bsClear (fieldSD w)⟩,
    ⟨0x00000002, 0xFFC0FCFF, fun w => .bsAppendBits (fieldSD w) (fieldN w)⟩,
    ⟨0x00000003, 0xFFFFECFF, fun w => .bsAppendBools (fieldSD w) (fieldB w)⟩,
    ⟨0x00000004, 0xFFFFF0FF, fun w => .bsAppend (fieldSD w) (fieldSS w)⟩,
    ⟨0x00000005, 0xFFFFF0FF, fun w => .bsSubstr (fieldSD w) (fieldSS w)⟩,
    ⟨0x00000006, 0xFFFFF3FF, fun w => .bsByteAt (fieldSS w)⟩,
    ⟨0x00000010, 0xFFFFFFFF, fun _ => .gfMul⟩,
    ⟨0x00000011, 0xFFFFFFFF, fun _ => .gfExp⟩,
    ⟨0x00000012, 0xFFFFFFFF, fun _ => .gfLog⟩,
    ⟨0x00000013, 0xFFFFFCFF, fun w => .rsGenpoly (fieldSD w)⟩,
    ⟨0x00000014, 0xFFFFF0FF, fun w => .rsEncode (fieldSD w) (fieldSS w)⟩,
    ⟨0x00000020, 0xFFFFFFFF, fun _ => .symInit⟩,
    ⟨0x00000021, 0xFFFFFFFF, fun _ => .symFunction⟩,
    ⟨0x00000022, 0xFFFFF3FF, fun w => .symPlace (fieldSS w)⟩,
    ⟨0x00000023, 0xFFF8FFFF, fun w => .symApplyMask (fieldM w)⟩,
    ⟨0x00000024, 0xFFFFFFFF, fun _ => .symScore⟩,
    ⟨0x00000025, 0xFFFFFFFF, fun _ => .symSelectMask⟩ ]

/-- Does the row's match and mask select this word (R62)? -/
def rowMatches (w : Word) (r : OpcodeRow) : Bool := w &&& r.mask == r.pattern

/-- The command a word is, or why it is none (R59, R62, R63). -/
def decode (w : Word) : Except DecodeError Instr :=
  match opcodeRows.find? (rowMatches w) with
  | some r => .ok (r.build w)
  | none =>
    if opcodeRows.any (fun r => r.pattern &&& 0xFF == w &&& 0xFF) then .error .unusedFieldSet
    else .error .unknownOpcode

/-- The decoder on a word numbered as the opcode table numbers it; bits above `nbits` are 0. -/
def decodeTableWord (nbits w : Nat) : Option Instr :=
  match decode (BitVec.ofNat 32 (w % 2 ^ nbits)) with
  | .ok i => some i
  | .error _ => none

/-- A command word from its fields: OP 7:0, SD 9:8, SS 11:10, B 12, N 21:16 (R58). -/
def commandWord (op sd ss b n : Nat) : Word :=
  BitVec.ofNat 32 (op + sd * 2 ^ 8 + ss * 2 ^ 10 + b * 2 ^ 12 + n * 2 ^ 16)

/-- The command word of a command: its opcode (R62) with its fields at their places (R58), every other bit 0 (R59). -/
def encode : Instr → Word
  | .nop => commandWord 0x00 0 0 0 0
  | .bsClear sd => commandWord 0x01 sd 0 0 0
  | .bsAppendBits sd n => commandWord 0x02 sd 0 0 n
  | .bsAppendBools sd b => commandWord 0x03 sd 0 b.toNat 0
  | .bsAppend sd ss => commandWord 0x04 sd ss 0 0
  | .bsSubstr sd ss => commandWord 0x05 sd ss 0 0
  | .bsByteAt ss => commandWord 0x06 0 ss 0 0
  | .gfMul => commandWord 0x10 0 0 0 0
  | .gfExp => commandWord 0x11 0 0 0 0
  | .gfLog => commandWord 0x12 0 0 0 0
  | .rsGenpoly sd => commandWord 0x13 sd 0 0 0
  | .rsEncode sd ss => commandWord 0x14 sd ss 0 0
  | .symInit => commandWord 0x20 0 0 0 0
  | .symFunction => commandWord 0x21 0 0 0 0
  | .symPlace ss => commandWord 0x22 0 ss 0 0
  | .symApplyMask m => commandWord 0x23 0 0 0 m
  | .symScore => commandWord 0x24 0 0 0 0
  | .symSelectMask => commandWord 0x25 0 0 0 0

end Sys2Proof
end

