-- ==== Sys2Proof/Config.lean ====
section
/-! DEFINITION. The implementation parameters of 00_scope.md R5 that the rules read, and the one free value. -/

namespace Sys2Proof

/-- `QZ`, the quiet-zone width (R5, R33). -/
def Config.quietZone : Nat := 4

/-- `VMIN` (R5). -/
def Config.vMin : Nat := 1

/-- `VMAX` (R5). -/
def Config.vMax : Nat := 40

/-- `SIZE_MAX`, the side of every grid (R5, R26). -/
def Config.sizeMax : Nat := 185

/-- `BS_CAP`, the capacity of a bitstream buffer in bits (R5, R24, R69). -/
def Config.bsCap : Nat := 32768

/-- What a read returns where the spec says "any value" (R26, R49, R52): the n-th draw. It has no body, so nothing can
be proved of its values; State.env.draws is the counter it is applied to. Log 1. -/
opaque Config.freeRead : Nat → Word

end Sys2Proof
end

