-- ==== Sys2Proof/Machine/State.lean ====
section
/-! DEFINITION. The state of QRSB (10_state.md), the environment the block runs in (its host's accesses and the latency
of its commands, as plain data), the reasons a step stops, and the state after reset (70_reset_and_hazards.md R149). -/

namespace Sys2Proof.Machine

/-- The symbol phase, STATUS[6:4] (R27). Values 6 and 7 never occur. -/
inductive Phase where
  | empty | init | func | placed | masked | final
  deriving DecidableEq, Repr

/-- The recovery level (R29, R61), in the order of its index 0 to 3. -/
inductive Level where
  | l | m | q | h
  deriving DecidableEq, Repr

/-- The error codes (60_exceptions.md R133), in the order of their values 0 to 7. -/
inductive ErrCode where
  | none | illegal | operand | bounds | overflow | rsLength | sequence | placeLength
  deriving DecidableEq, Repr

/-- The writable bits of INT_EN (R18); its other bits read 0. -/
structure IntEn where
  done : Bool
  err : Bool
  drop : Bool
  deriving DecidableEq, Repr

/-- What the engine latches when a CMD write is accepted (R21, R42). -/
structure Latch where
  word : Word
  arg0 : Word
  arg1 : Word
  arg2 : Word
  deriving DecidableEq, Repr

/-- Bordered coordinates of a finder pattern's top-left module (R35): X in bits 7:0, Y in bits 15:8. -/
structure Point where
  x : BitVec 8
  y : BitVec 8
  deriving DecidableEq, Repr

/-- One grid (R26): an array of 185 × 185 bits indexed by bordered coordinates. Module (X, Y) is bit 185·Y + X; only
Grid.read, Grid.write and Grid.tabulate (Machine/Ops.lean) know that. -/
structure Grid where
  bits : BitVec 34225
  deriving DecidableEq, Repr

/-- The six grids (R26). -/
structure Grids where
  module : Grid
  func : Grid
  used : Grid
  out : Grid
  finder : Grid
  lastAlign : Grid
  deriving DecidableEq, Repr

/-- The symbol registers (R28 to R32, R34 to R37). SYM_BORDER (R33) is a constant, no state. -/
structure SymRegs where
  version : BitVec 6
  level : Level
  mask : BitVec 3
  inner : BitVec 8
  size : BitVec 8
  free : BitVec 16
  fpTL : Point
  fpTR : Point
  fpBL : Point
  fmtWord : BitVec 15
  verWord : BitVec 18
  deriving DecidableEq, Repr

/-- The penalty registers (R38, R39). -/
structure PenRegs where
  total : Word
  n1 : Word
  n2 : Word
  n3 : Word
  n4 : Word
  dark : Word
  perMask : Vector Word 8
  deriving DecidableEq, Repr

/-- The width of a host access (20_memory.md R46). -/
inductive AccessWidth where
  | w8 | w16 | w32 | w64
  deriving DecidableEq, Repr

/-- What can arrive at the block from outside. Offsets are byte offsets from QRSB_BASE (R44). -/
inductive BusOp where
  /-- A host read (R46, R51). -/
  | read (off : BitVec 16) (width : AccessWidth)
  /-- A host write (R46, R51). -/
  | write (off : BitVec 16) (width : AccessWidth) (v : Word)
  /-- A 32-bit host write of the value the host read last (what `bs.copy` of R66 writes to ARG1). -/
  | writeLast (off : BitVec 16)
  /-- The pseudo-instruction `wait` of R66: STATUS is read until BUSY is 0. -/
  | wait
  /-- A pulse of the reset input (R147). -/
  | hwReset
  deriving DecidableEq, Repr

/-- The environment of the block: the MODEL's own fields, no register of the block (log 1, log 2, log 3). -/
structure Env where
  /-- The accesses and reset pulses still to arrive, oldest first (R53, R155). -/
  inbox : List BusOp
  /-- For each command still to be accepted, how many host steps come before its engine step (R154). -/
  latencies : List Nat
  /-- How many of them are left for the command in flight. -/
  hold : Nat
  /-- The answers given to host reads, newest first: offset and word. -/
  reads : List (BitVec 16 × Word)
  /-- How many free read values were drawn so far (R52). -/
  draws : Nat
  deriving DecidableEq, Repr

/-- The state of the block and its environment. -/
structure State where
  /-- STATUS.BUSY (R17). -/
  busy : Bool
  /-- STATUS.DONE (R17). -/
  done : Bool
  /-- STATUS.ERR (R17). -/
  err : Bool
  /-- STATUS.DROP (R17). -/
  drop : Bool
  /-- STATUS.PHASE (R17, R27). -/
  phase : Phase
  /-- INT_EN (R18). -/
  intEn : IntEn
  /-- ERRCODE (R19). -/
  errCode : ErrCode
  /-- ERRCMD (R20). -/
  errCmd : Word
  /-- CMD: the last accepted command word (R21). -/
  cmd : Word
  /-- ARG0 (R22). -/
  arg0 : Word
  /-- ARG1 (R22). -/
  arg1 : Word
  /-- ARG2 (R22). -/
  arg2 : Word
  /-- RESULT (R23). -/
  result : Word
  /-- The engine's latch (R42); all zero while no command is in flight (log 5). -/
  latch : Latch
  /-- The bitstream buffers BS[0] to BS[3] (R24); LEN[s] is the length of BS[s] (R25). -/
  bufs : Vector Bits 4
  /-- The symbol registers (R28 to R37). -/
  sym : SymRegs
  /-- The penalty registers (R38, R39). -/
  pen : PenRegs
  /-- The six grids (R26). -/
  grids : Grids
  /-- The environment; not part of the block. -/
  env : Env
  deriving DecidableEq, Repr

/-- Why the machine stops with a fault: never. Every failing command takes the error completion of R136, which is a
next state, and no state is without a move (R137, R138; 93_implementation_defined.md U22, U23). -/
inductive Fault
  deriving DecidableEq, Repr

/-- Why a step has no meaning. -/
inductive Refusal where
  /-- The command has no meaning in the model yet; no arm of exec answers it. Safe. -/
  | notModelled (mnemonic : String)
  /-- Raised by a host access of 8, 16 or 64 bits (R46: "has no meaning in this spec: the model refuses it"). Safe. -/
  | accessWidth (width : AccessWidth)
  /-- Raised by a 32-bit host access at an offset that is not a multiple of 4 (R46). Safe. -/
  | misaligned (off : BitVec 16)
  deriving DecidableEq, Repr

/-- The latch of an idle engine (R149; zeros are the model's choice, log 5). -/
def Latch.idle : Latch := ⟨0, 0, 0, 0⟩

/-- A grid of light modules. -/
def Grid.zero : Grid := ⟨0⟩

/-- The six grids all light: what SYM_INIT leaves (R97), and the model's choice for reset (log 4). -/
def Grids.zero : Grids := ⟨Grid.zero, Grid.zero, Grid.zero, Grid.zero, Grid.zero, Grid.zero⟩

/-- The symbol registers after reset (R149). -/
def SymRegs.reset : SymRegs :=
  { version := 0, level := .l, mask := 0, inner := 0, size := 0, free := 0, fpTL := ⟨0, 0⟩, fpTR := ⟨0, 0⟩,
    fpBL := ⟨0, 0⟩, fmtWord := 0, verWord := 0 }

/-- The penalty registers all zero: after reset (R149) and after SYM_INIT (R97). -/
def PenRegs.zero : PenRegs :=
  { total := 0, n1 := 0, n2 := 0, n3 := 0, n4 := 0, dark := 0, perMask := Vector.replicate 8 0 }

/-- An environment that sends nothing (log 2, log 3). -/
def Env.quiet : Env := { inbox := [], latencies := [], hold := 0, reads := [], draws := 0 }

/-- The machine right after reset (R149). The grids' zeros (log 4), the idle latch's zeros (log 5) and the environment's
fields (log 2, log 3) are the model's; every other value is the spec's. -/
def State.reset : State :=
  { busy := false, done := false, err := false, drop := false, phase := .empty,
    intEn := ⟨false, false, false⟩, errCode := .none, errCmd := 0, cmd := 0, arg0 := 0, arg1 := 0, arg2 := 0,
    result := 0, latch := Latch.idle, bufs := Vector.replicate 4 [], sym := SymRegs.reset, pen := PenRegs.zero,
    grids := Grids.zero, env := Env.quiet }

end Sys2Proof.Machine
end

