-- ==== Sys2Proof/Machine/Ops.lean ====
section
/-! DEFINITION. The shared operations over the state: grids, bitstream buffers, the two ways a command ends
(60_exceptions.md R135, R136), clearing (R138), acceptance (R137) and reset (70_reset_and_hazards.md R147 to R149). -/

namespace Sys2Proof.Machine

/-! ## Grids (10_state.md R26, 00_scope.md R9) -/

/-- Module (X, Y), bordered coordinates; light outside the array. -/
def Grid.read (g : Grid) (X Y : Nat) : Bool := decide (X < Config.sizeMax) && g.bits.getLsbD (Config.sizeMax * Y + X)

/-- `GRID[g][X][Y] <- b` (R10); nothing outside the array. -/
def Grid.write (g : Grid) (X Y : Nat) (b : Bool) : Grid :=
  if X < Config.sizeMax then
    ⟨if b then g.bits ||| 1#34225 <<< (Config.sizeMax * Y + X)
      else g.bits &&& ~~~(1#34225 <<< (Config.sizeMax * Y + X))⟩
  else g

/-- Module (x, y), inner coordinates (R9: the quiet-zone offset is added). -/
def Grid.readInner (g : Grid) (x y : Nat) : Bool := g.read (x + Config.quietZone) (y + Config.quietZone)

/-- Write module (x, y), inner coordinates (R9). -/
def Grid.writeInner (g : Grid) (x y : Nat) (b : Bool) : Grid := g.write (x + Config.quietZone) (y + Config.quietZone) b

/-- The 185 modules of row Y, module X in bit X (20_memory.md R49). -/
def Grid.row (g : Grid) (Y : Nat) : BitVec 185 := (g.bits >>> (Config.sizeMax * Y)).setWidth 185

/-- A row whose inner modules x = 0 .. side − 1 are `f x`, light elsewhere. -/
def rowBits (side : Nat) (f : Nat → Bool) : BitVec 185 :=
  (List.range side).foldl
    (fun r x => r ||| (BitVec.ofBool (f x)).setWidth 185 <<< (x + Config.quietZone)) 0

/-- The grid whose inner module (x, y) is `f x y` for x, y < side, light elsewhere. -/
def Grid.tabulate (side : Nat) (f : Nat → Nat → Bool) : Grid :=
  ⟨(List.range side).foldl
    (fun g y => g ||| (rowBits side (f · y)).setWidth 34225 <<< (Config.sizeMax * (y + Config.quietZone))) 0⟩

/-- The rows y = 0 .. side − 1 of the inner part, each its modules x = 0 .. side − 1. -/
def Grid.innerRows (g : Grid) (side : Nat) : List (List Bool) :=
  (List.range side).map fun y => (List.range side).map fun x => g.readInner x y

/-- How many inner modules have the value `b`. -/
def Grid.countInner (g : Grid) (side : Nat) (b : Bool) : Nat := ((g.innerRows side).map (List.count b)).sum

/-- A write of one module in inner coordinates. -/
structure Stroke where
  x : Nat
  y : Nat
  dark : Bool
  deriving DecidableEq, Repr

/-- Write modules one after another (R10). -/
def Grid.paint (g : Grid) (ks : List Stroke) : Grid := ks.foldl (fun g k => g.writeInner k.x k.y k.dark) g

/-- inner(V) = 17 + 4·V (R5). -/
def innerSide (version : Nat) : Nat := 17 + 4 * version

/-- The version of the symbol being built, as a number (R28). -/
def State.versionNat (s : State) : Nat := s.sym.version.toNat

/-- inner(V) of the symbol being built. -/
def State.side (s : State) : Nat := innerSide s.versionNat

/-! ## Bitstream buffers (R24) -/

/-- BS[i]. -/
def State.buf (s : State) (i : BufIdx) : Bits := s.bufs[i]

/-- LEN[i] (R25). -/
def State.len (s : State) (i : BufIdx) : Nat := (s.buf i).length

/-- BS[i] <- b, LEN[i] <- its length. -/
def State.setBuf (s : State) (i : BufIdx) (b : Bits) : State := { s with bufs := s.bufs.set i.val b i.isLt }

/-- BS[i] <- BS[i] ‖ b. -/
def State.appendBuf (s : State) (i : BufIdx) (b : Bits) : State := s.setBuf i (s.buf i ++ b)

/-- n more bits fit in BS[i] (41_bitstream.md R69), on unbounded naturals. -/
def State.fits (s : State) (i : BufIdx) (n : Nat) : Bool := decide (s.len i + n ≤ Config.bsCap)

/-- RESULT <- v (R23). -/
def State.setResult (s : State) (v : Word) : State := { s with result := v }

/-! ## The two ends of a command -/

/-- `done` (R135): BUSY <- 0, DONE <- 1; the engine is idle again. -/
def State.complete (s : State) : State := { s with busy := false, done := true, latch := Latch.idle }

/-- `raise Err(code)` (R136), the one exception entry of the block: BUSY <- 0, ERR <- 1, ERRCODE <- code, ERRCMD <- the
latched command word; every other register, buffer and grid as it was; the engine is idle again. -/
def State.raiseErr (s : State) (code : ErrCode) : State :=
  { s with busy := false, err := true, errCode := code, errCmd := s.latch.word, latch := Latch.idle }

/-- The analogue of trap return (R138): a STATUS write clears DONE, ERR and DROP where the written bit is 1 (R17). -/
def State.clearStatus (s : State) (v : Word) : State :=
  { s with done := s.done && !v.getLsbD 1, err := s.err && !v.getLsbD 2, drop := s.drop && !v.getLsbD 3 }

/-- A command ends with `done` after its writes, or with an error. -/
def State.finish (s : State) : Host.Outcome State Fault Refusal := .next s.complete

/-- A command ends with an error: a next state. -/
def State.fail (s : State) (code : ErrCode) : Host.Outcome State Fault Refusal := .next (s.raiseErr code)

/-! ## Acceptance and reset -/

/-- An accepted CMD write (R137): CMD <- w, w and ARG0 to ARG2 are latched (R21), BUSY <- 1. How many host steps come
before the engine step is the next entry of the environment's latencies (R154, log 3). -/
def State.accept (s : State) (w : Word) : State :=
  { s with
    busy := true, cmd := w, latch := ⟨w, s.arg0, s.arg1, s.arg2⟩,
    env := { s.env with hold := s.env.latencies.headD 0, latencies := s.env.latencies.tail } }

/-- A host write of w to CMD (R137): accepted iff BUSY = 0 and ERR = 0, else dropped. -/
def State.issue (s : State) (w : Word) : State :=
  if s.busy || s.err then { s with drop := true } else s.accept w

/-- Hardware or soft reset (R147, R148): every piece of the block's state to its value of R149; the environment is not
part of the block and stays. -/
def State.resetBlock (s : State) : State := { State.reset with env := s.env }

end Sys2Proof.Machine
end

