-- ==== Sys2Proof/Machine/Operands.lean ====
section
/-! DEFINITION. The operand forms: latched ARG values (30_encoding.md R60), byte-sized operands, level and version
operands, MSB-first bit groups, slices and byte reads of a bitstream (00_scope.md R7). -/

namespace Sys2Proof.Machine

/-- ARG0 as latched, an unsigned number (R60). -/
def State.op0 (s : State) : Nat := s.latch.arg0.toNat

/-- ARG1 as latched. -/
def State.op1 (s : State) : Nat := s.latch.arg1.toNat

/-- ARG2 as latched. -/
def State.op2 (s : State) : Nat := s.latch.arg2.toNat

/-- The bits `v[n−1] … v[0]`, MSB-first (R7, 41_bitstream.md R72). -/
def bitsMsbFirst (n : Nat) {w : Nat} (v : BitVec w) : Bits := (List.range n).map fun k => v.getLsbD (n - 1 - k)

/-- A codeword as 8 bits MSB-first (R87, R88). -/
def byteBits (b : Byte) : Bits := bitsMsbFirst 8 b

/-- Codewords as a bitstream, in order. -/
def bytesBits (bs : List Byte) : Bits := bs.flatMap byteBits

/-- `B[lo, hi)` (R7). -/
def slice (b : Bits) (lo hi : Nat) : Bits := (b.take hi).drop lo

/-- The number whose bits, MSB-first, are b (R76's loop `v <- 2*v + bit`). -/
def bitsValue (b : Bits) : Nat := b.foldl (fun v bit => 2 * v + bit.toNat) 0

/-- `byte_at(B, i)` (R7): the byte whose MSB is bit 8i. -/
def byteAt (b : Bits) (i : Nat) : Byte := BitVec.ofNat 8 (bitsValue (slice b (8 * i) (8 * i + 8)))

/-- A byte operand (R84): none when the register value is above 255. -/
def byteOperand (v : Word) : Option Byte := if v.toNat ≤ 255 then some (v.setWidth 8) else none

/-- The level of an index 0 to 3 (R61); none above 3. -/
def levelOperand (v : Word) : Option Level :=
  match v.toNat with
  | 0 => some .l
  | 1 => some .m
  | 2 => some .q
  | 3 => some .h
  | _ => none

/-- A version operand 1 to 40 (43_symbol.md R97); none outside. -/
def versionOperand (v : Word) : Option (BitVec 6) :=
  if Config.vMin ≤ v.toNat ∧ v.toNat ≤ Config.vMax then some (v.setWidth 6) else none

/-- The level index (R61). -/
def Level.index : Level → BitVec 2
  | .l => 0
  | .m => 1
  | .q => 2
  | .h => 3

/-- The code of an error (60_exceptions.md R133). -/
def ErrCode.value : ErrCode → BitVec 8
  | .none => 0
  | .illegal => 1
  | .operand => 2
  | .bounds => 3
  | .overflow => 4
  | .rsLength => 5
  | .sequence => 6
  | .placeLength => 7

/-- The value of STATUS.PHASE (10_state.md R27). -/
def Phase.value : Phase → BitVec 3
  | .empty => 0
  | .init => 1
  | .func => 2
  | .placed => 3
  | .masked => 4
  | .final => 5

end Sys2Proof.Machine
end

