-- ==== Sys2Proof/Machine/Flags.lean ====
section
/-! DEFINITION. The status flags as the host sees them (10_state.md R17, R18, R43), the interrupt level
(60_exceptions.md R140), and the phase condition of the symbol commands (R27). -/

namespace Sys2Proof.Machine

/-- One flag as a bit of a register word. -/
def flagBit (b : Bool) (i : Nat) : Word := (BitVec.ofBool b).setWidth 32 <<< i

/-- STATUS as read (R17): BUSY 0, DONE 1, ERR 2, DROP 3, PHASE 6:4, the rest 0. -/
def State.statusWord (s : State) : Word :=
  flagBit s.busy 0 ||| flagBit s.done 1 ||| flagBit s.err 2 ||| flagBit s.drop 3 |||
    s.phase.value.setWidth 32 <<< 4

/-- INT_EN as read (R18): bits 1, 2, 3; the rest 0. -/
def IntEn.word (e : IntEn) : Word := flagBit e.done 1 ||| flagBit e.err 2 ||| flagBit e.drop 3

/-- INT_EN as written (R18): only bits 1, 2, 3 are kept. -/
def IntEn.ofWord (v : Word) : IntEn := ⟨v.getLsbD 1, v.getLsbD 2, v.getLsbD 3⟩

/-- The interrupt output, a level (R140). -/
def State.irq (s : State) : Bool :=
  s.done && s.intEn.done || s.err && s.intEn.err || s.drop && s.intEn.drop

/-- Data has been placed: the phases that allow masking (R27, 44_mask.md R114, R116). -/
def Phase.allowsMask : Phase → Bool
  | .empty => false
  | .init => false
  | .func => false
  | .placed => true
  | .masked => true
  | .final => true

/-- OUT holds a masked symbol: the phases that allow SYM_SCORE (R115). -/
def Phase.allowsScore : Phase → Bool
  | .empty => false
  | .init => false
  | .func => false
  | .placed => false
  | .masked => true
  | .final => true

end Sys2Proof.Machine
end

