-- ==== Sys2Proof/Machine/Bus.lean ====
section
/-! DEFINITION. The host's side: the register map (10_state.md R14), the grid windows (20_memory.md R49), reads (R48,
R51, R52) and writes (R51), and how an access that arrives is handled (R46, R53). -/

namespace Sys2Proof.Machine

/-! ## The address map -/

/-- The registers of R14. -/
inductive Reg where
  | id | ctrl | status | intEn | errCode | errCmd | cmd
  | arg (j : Fin 3)
  | result
  | bsLen (i : BufIdx)
  | symVersion | symLevel | symMask | symInner | symSize | symBorder | symFree
  | fpTL | fpTR | fpBL
  | fmtWord | verWord
  | penTotal | penN1 | penN2 | penN3 | penN4 | penDark
  | penMask (m : MaskIdx)
  deriving DecidableEq, Repr

/-- The offsets of R14. -/
def registerMap : List (Nat × Reg) :=
  [ (0x000, .id), (0x004, .ctrl), (0x008, .status), (0x00C, .intEn), (0x010, .errCode), (0x014, .errCmd),
    (0x018, .cmd), (0x01C, .arg 0), (0x020, .arg 1), (0x024, .arg 2), (0x02C, .result),
    (0x030, .bsLen 0), (0x034, .bsLen 1), (0x038, .bsLen 2), (0x03C, .bsLen 3) ] ++
  [ (0x040, .symVersion), (0x044, .symLevel), (0x048, .symMask), (0x04C, .symInner), (0x050, .symSize),
    (0x054, .symBorder), (0x058, .symFree), (0x05C, .fpTL), (0x060, .fpTR), (0x064, .fpBL), (0x068, .fmtWord),
    (0x06C, .verWord) ] ++
  [ (0x070, .penTotal), (0x074, .penN1), (0x078, .penN2), (0x07C, .penN3), (0x080, .penN4), (0x084, .penDark),
    (0x0A0, .penMask 0), (0x0A4, .penMask 1), (0x0A8, .penMask 2), (0x0AC, .penMask 3), (0x0B0, .penMask 4),
    (0x0B4, .penMask 5), (0x0B8, .penMask 6), (0x0BC, .penMask 7) ]

/-- The six grids, in the order of their windows (R49). -/
inductive GridName where
  | out | module | func | used | finder | lastAlign
  deriving DecidableEq, Repr

/-- The grid whose window is the n-th (R49). -/
def windowGrid (n : Nat) : GridName :=
  match n with
  | 0 => .out
  | 1 => .module
  | 2 => .func
  | 3 => .used
  | 4 => .finder
  | _ => .lastAlign

/-- The grid of a name. -/
def Grids.get (g : Grids) : GridName → Grid
  | .out => g.out
  | .module => g.module
  | .func => g.func
  | .used => g.used
  | .finder => g.finder
  | .lastAlign => g.lastAlign

/-- What stands at an offset (R44): a register, word w of row Y of a window (R49), or nothing (R48). -/
inductive Target where
  | reg (r : Reg)
  | window (g : GridName) (row word : Nat)
  | reserved
  deriving DecidableEq, Repr

/-- The address map (R44, R49). -/
def target (off : BitVec 16) : Target :=
  if off.toNat < 0x2000 then
    match registerMap.lookup off.toNat with
    | some r => .reg r
    | none => .reserved
  else if off.toNat < 0xE000 then
    .window (windowGrid ((off.toNat - 0x2000) / 0x2000)) (off.toNat % 0x2000 / 32) (off.toNat % 32 / 4)
  else .reserved

/-! ## Reads -/

/-- FP_TL, FP_TR, FP_BL as read (10_state.md R35). -/
def Point.word (p : Point) : Word := p.x.setWidth 32 ||| p.y.setWidth 32 <<< 8

/-- What a register reads when the read is exact (R15 to R39). -/
def State.regValue (s : State) : Reg → Word
  | .id => 0x51525342
  | .ctrl => 0
  | .status => s.statusWord
  | .intEn => s.intEn.word
  | .errCode => s.errCode.value.setWidth 32
  | .errCmd => s.errCmd
  | .cmd => s.cmd
  | .arg 0 => s.arg0
  | .arg 1 => s.arg1
  | .arg 2 => s.arg2
  | .result => s.result
  | .bsLen i => BitVec.ofNat 32 (s.len i)
  | .symVersion => s.sym.version.setWidth 32
  | .symLevel => s.sym.level.index.setWidth 32
  | .symMask => s.sym.mask.setWidth 32
  | .symInner => s.sym.inner.setWidth 32
  | .symSize => s.sym.size.setWidth 32
  | .symBorder => BitVec.ofNat 32 Config.quietZone
  | .symFree => s.sym.free.setWidth 32
  | .fpTL => s.sym.fpTL.word
  | .fpTR => s.sym.fpTR.word
  | .fpBL => s.sym.fpBL.word
  | .fmtWord => s.sym.fmtWord.setWidth 32
  | .verWord => s.sym.verWord.setWidth 32
  | .penTotal => s.pen.total
  | .penN1 => s.pen.n1
  | .penN2 => s.pen.n2
  | .penN3 => s.pen.n3
  | .penN4 => s.pen.n4
  | .penDark => s.pen.dark
  | .penMask m => s.pen.perMask[m]

/-- Reads of these registers are exact at all times (R52); CTRL always reads 0 (R48). The others read any value while
BUSY = 1. -/
def Reg.alwaysExact : Reg → Bool
  | .id => true
  | .ctrl => true
  | .status => true
  | .intEn => true
  | .cmd => true
  | .arg _ => true
  | .errCode => false
  | .errCmd => false
  | .result => false
  | .bsLen _ => false
  | .symVersion => false
  | .symLevel => false
  | .symMask => false
  | .symInner => false
  | .symSize => false
  | .symBorder => false
  | .symFree => false
  | .fpTL => false
  | .fpTR => false
  | .fpBL => false
  | .fmtWord => false
  | .verWord => false
  | .penTotal => false
  | .penN1 => false
  | .penN2 => false
  | .penN3 => false
  | .penN4 => false
  | .penDark => false
  | .penMask _ => false

/-- A window word (R49): module X = 32·w + b of row Y in bit b; 0 past the 185 modules and the 185 rows. -/
def Grid.windowWord (g : Grid) (row word : Nat) : Word := (g.row row >>> (32 * word)).setWidth 32

/-- What a read of an offset returns; none where the spec says "any value" (R52; R26, R49 before the first SYM_INIT). That
the whole word is then open, also the reserved bits of a register and the padding words of a window, which R48 and R49 say
read 0, is the model's choice (DESIGN CHOICE, log 1). -/
def State.readValue (s : State) (off : BitVec 16) : Option Word :=
  match target off with
  | .reg r => if s.busy && !r.alwaysExact then none else some (s.regValue r)
  | .window g row word =>
    if s.busy || s.phase = .empty then none else some ((s.grids.get g).windowWord row word)
  | .reserved => some 0

/-- A read answered with v. -/
def State.answer (s : State) (off : BitVec 16) (v : Word) : State :=
  { s with env := { s.env with reads := (off, v) :: s.env.reads } }

/-- A free read value: the next draw (log 1). -/
def State.drawRead (s : State) : State := { s with env := { s.env with draws := s.env.draws + 1 } }

/-- A host read (R51: nothing of the block changes). -/
def State.busRead (s : State) (off : BitVec 16) : State :=
  match s.readValue off with
  | some v => s.answer off v
  | none => s.drawRead.answer off (Config.freeRead s.env.draws)

/-! ## Writes -/

/-- A host write of ARGj (R22). -/
def State.setArg (s : State) (j : Fin 3) (v : Word) : State :=
  match j with
  | 0 => { s with arg0 := v }
  | 1 => { s with arg1 := v }
  | 2 => { s with arg2 := v }

/-- A host write of INT_EN (R18). -/
def State.setIntEn (s : State) (v : Word) : State := { s with intEn := IntEn.ofWord v }

/-- A host write (R51): CTRL resets (R16), STATUS clears (R17), INT_EN and ARG are set, CMD issues (R21); any other
offset ignores it (R48, R49). -/
def State.busWrite (s : State) (off : BitVec 16) (v : Word) : State :=
  match target off with
  | .reg .ctrl => if v.getLsbD 0 then s.resetBlock else s
  | .reg .status => s.clearStatus v
  | .reg .intEn => s.setIntEn v
  | .reg .cmd => s.issue v
  | .reg (.arg j) => s.setArg j v
  | .reg _ => s
  | .window _ _ _ => s
  | .reserved => s

/-! ## What arrives -/

/-- The value of the host's last read; 0 before the first. -/
def Env.lastRead (e : Env) : Word :=
  match e.reads with
  | [] => 0
  | (_, v) :: _ => v

/-- The oldest entry of the inbox is taken, and one of the host steps before the engine step is used up (R154). -/
def State.takeOp (s : State) : State :=
  { s with env := { s.env with inbox := s.env.inbox.tail, hold := s.env.hold - 1 } }

/-- Put an operation back as the next to arrive. -/
def State.putBack (s : State) (op : BusOp) : State :=
  { s with env := { s.env with inbox := op :: s.env.inbox } }

/-- The offset of STATUS (R14). -/
def statusOffset : BitVec 16 := 0x008

/-- One access, or one reset pulse, is handled (R53). An access that is not a 32-bit one at a multiple of 4 is refused
(R46). `wait` reads STATUS and stays while BUSY is 1 (30_encoding.md R66). -/
def busOp (op : BusOp) (s : State) : Host.Outcome State Fault Refusal :=
  match op with
  | .read off width =>
    if width ≠ .w32 then .refused (.accessWidth width)
    else if off.toNat % 4 ≠ 0 then .refused (.misaligned off)
    else .next (s.busRead off)
  | .write off width v =>
    if width ≠ .w32 then .refused (.accessWidth width)
    else if off.toNat % 4 ≠ 0 then .refused (.misaligned off)
    else .next (s.busWrite off v)
  | .writeLast off =>
    if off.toNat % 4 ≠ 0 then .refused (.misaligned off)
    else .next (s.busWrite off s.env.lastRead)
  | .wait =>
    if s.busy then .next ((s.busRead statusOffset).putBack .wait) else .next (s.busRead statusOffset)
  | .hwReset => .next s.resetBlock

/-- The host's step: the next operation of the inbox; nothing when the inbox is empty. -/
def hostStep (s : State) : Host.Outcome State Fault Refusal :=
  match s.env.inbox with
  | [] => .next s
  | op :: _ => busOp op s.takeOp

end Sys2Proof.Machine
end

