-- ==== Sys2Proof/Machine/Bitstream.lean ====
section
/-! DEFINITION. The bitstream family (41_bitstream.md). Every source is read before the destination is written (R68). -/

namespace Sys2Proof.Machine

/-- BS_CLEAR (R71). -/
def execBsClear (sd : BufIdx) (s : State) : Host.Outcome State Fault Refusal := (s.setBuf sd []).finish

/-- BS_APPEND_BITS (R72): the low N bits of ARG0, MSB-first. -/
def execBsAppendBits (sd : BufIdx) (n : Nat) (s : State) : Host.Outcome State Fault Refusal :=
  if n > 32 then s.fail .operand
  else if !s.fits sd n then s.fail .overflow
  else (s.appendBuf sd (bitsMsbFirst n s.latch.arg0)).finish

/-- BS_APPEND_BOOLS (R73): ARG0 copies of B. -/
def execBsAppendBools (sd : BufIdx) (b : Bool) (s : State) : Host.Outcome State Fault Refusal :=
  if !s.fits sd s.op0 then s.fail .overflow
  else (s.appendBuf sd (List.replicate s.op0 b)).finish

/-- BS_APPEND (R74). -/
def execBsAppend (sd ss : BufIdx) (s : State) : Host.Outcome State Fault Refusal :=
  if !s.fits sd (s.len ss) then s.fail .overflow
  else (s.appendBuf sd (s.buf ss)).finish

/-- BS_SUBSTR (R75): the slice [ARG0, ARG1) of BS[SS] replaces BS[SD]. -/
def execBsSubstr (sd ss : BufIdx) (s : State) : Host.Outcome State Fault Refusal :=
  if s.op0 ≤ s.op1 ∧ s.op1 ≤ s.len ss then (s.setBuf sd (slice (s.buf ss) s.op0 s.op1)).finish
  else s.fail .bounds

/-- BS_BYTE_AT (R76): byte ARG0 of BS[SS] goes to RESULT. -/
def execBsByteAt (ss : BufIdx) (s : State) : Host.Outcome State Fault Refusal :=
  if 8 * s.op0 + 8 > s.len ss then s.fail .bounds
  else (s.setResult ((byteAt (s.buf ss) s.op0).setWidth 32)).finish

end Sys2Proof.Machine
end

