-- ==== Sys2Proof/Machine/Control.lean ====
section
/-! DEFINITION. The control family (45_control.md). -/

namespace Sys2Proof.Machine

/-- NOP (R117): only DONE. -/
def execNop (s : State) : Host.Outcome State Fault Refusal := s.finish

end Sys2Proof.Machine
end

