-- ==== Sys2Proof/Machine/Tables.lean ====
section
/-! DEFINITION. The alignment-pattern ROM and the coordinates of function patterns, format and version information
(10_state.md R41; 43_symbol.md R90 to R94; 44_mask.md R103, R105). Inner coordinates throughout; `side` is inner(V). -/

namespace Sys2Proof.Machine

/-- ALIGN_CENTERS(1..40), in order (R41). -/
def alignTable : List (List Nat) :=
  [ [], [6, 18], [6, 22], [6, 26], [6, 30], [6, 34], [6, 22, 38], [6, 24, 42], [6, 26, 46], [6, 28, 50] ] ++
  [ [6, 30, 54], [6, 32, 58], [6, 34, 62], [6, 26, 46, 66], [6, 26, 48, 70], [6, 26, 50, 74], [6, 30, 54, 78],
    [6, 30, 56, 82], [6, 30, 58, 86], [6, 34, 62, 90] ] ++
  [ [6, 28, 50, 72, 94], [6, 26, 50, 74, 98], [6, 30, 54, 78, 102], [6, 28, 54, 80, 106], [6, 32, 58, 84, 110],
    [6, 30, 58, 86, 114], [6, 34, 62, 90, 118], [6, 26, 50, 74, 98, 122], [6, 30, 54, 78, 102, 126],
    [6, 26, 52, 78, 104, 130] ] ++
  [ [6, 30, 56, 82, 108, 134], [6, 34, 60, 86, 112, 138], [6, 30, 58, 86, 114, 142], [6, 34, 62, 90, 118, 146],
    [6, 30, 54, 78, 102, 126, 150], [6, 24, 50, 76, 102, 128, 154], [6, 28, 54, 80, 106, 132, 158],
    [6, 32, 58, 84, 110, 136, 162], [6, 26, 54, 82, 110, 138, 166], [6, 30, 58, 86, 114, 142, 170] ]

/-- ALIGN_CENTERS(V) (R41); none outside V = 1 to 40. -/
def alignCenters (version : Nat) : List Nat := if version = 0 then [] else alignTable.getD (version - 1) []

/-- |a − b| on naturals. -/
def absDiff (a b : Nat) : Nat := (a - b) + (b - a)

/-- A square of modules with top-left (x0, y0) and side n, each given its colour by the Chebyshev distance from the
centre: the finder of R90 (n = 7) and the alignment pattern of R92 (n = 5). -/
def ringSquare (x0 y0 n : Nat) (darkAt : Nat → Bool) : List Stroke :=
  (List.range n).flatMap fun dx => (List.range n).map fun dy =>
    ⟨x0 + dx, y0 + dy, darkAt (max (absDiff dx (n / 2)) (absDiff dy (n / 2)))⟩

/-- The top-left modules of the three finder patterns (R90). -/
def finderCorners (side : Nat) : List (Nat × Nat) := [(0, 0), (side - 7, 0), (0, side - 7)]

/-- A finder pattern (R90): dark where the distance from the centre is 0, 1 or 3. -/
def finderStrokes (fx fy : Nat) : List Stroke := ringSquare fx fy 7 (· ≠ 2)

/-- The separator of a finder (R90): the frame dx, dy ∈ −1..7 around it, light, truncated to the symbol edge. The frame
is indexed by i = dx + 1, j = dy + 1. -/
def separatorStrokes (side fx fy : Nat) : List Stroke :=
  (List.range 9).flatMap fun i => (List.range 9).filterMap fun j =>
    if (i = 0 ∨ i = 8 ∨ j = 0 ∨ j = 8) ∧ 1 ≤ fx + i ∧ 1 ≤ fy + j ∧ fx + i ≤ side ∧ fy + j ≤ side then
      some ⟨fx + i - 1, fy + j - 1, false⟩
    else none

/-- Step 1: finders and separators (R90). -/
def finderStep (side : Nat) : List Stroke :=
  (finderCorners side).flatMap fun (fx, fy) => finderStrokes fx fy ++ separatorStrokes side fx fy

/-- Step 2: timing patterns on row 6 and column 6, positions 8 to side − 9, dark where even (R91). -/
def timingStep (side : Nat) : List Stroke :=
  (List.range (side - 16)).flatMap fun k =>
    [⟨k + 8, 6, (k + 8) % 2 = 0⟩, ⟨6, k + 8, (k + 8) % 2 = 0⟩]

/-- Do the squares with top-left (x0, y0), side n and (x1, y1), side m share a module? -/
def squaresMeet (x0 y0 n x1 y1 m : Nat) : Bool :=
  decide (x0 < x1 + m ∧ x1 < x0 + n ∧ y0 < y1 + m ∧ y1 < y0 + n)

/-- The top-left modules of the three 8 × 8 finder-plus-separator areas (R90). -/
def finderAreas (side : Nat) : List (Nat × Nat) := [(0, 0), (side - 8, 0), (0, side - 8)]

/-- The centres of the alignment patterns painted (R92): cx the outer loop, a candidate skipped where its 5 × 5 area
meets a finder-plus-separator area. -/
def alignmentCenters (version : Nat) : List (Nat × Nat) :=
  ((alignCenters version).flatMap fun cx => (alignCenters version).map fun cy => (cx, cy)).filter fun (cx, cy) =>
    !(finderAreas (innerSide version)).any fun (ax, ay) => squaresMeet (cx - 2) (cy - 2) 5 ax ay 8

/-- An alignment pattern centred at (cx, cy) (R92): dark where the distance from the centre is 0 or 2. -/
def alignmentStrokes (cx cy : Nat) : List Stroke := ringSquare (cx - 2) (cy - 2) 5 (· ≠ 1)

/-- Step 3: alignment patterns (R92). -/
def alignmentStep (version : Nat) : List Stroke :=
  (alignmentCenters version).flatMap fun (cx, cy) => alignmentStrokes cx cy

/-- Step 4: the dark module (R93). -/
def darkModuleStep (version : Nat) : List Stroke := [⟨8, 4 * version + 9, true⟩]

/-- The two positions of bit i of the format word, i = 0 to 14 (R103). -/
def formatCells (side i : Nat) : List (Nat × Nat) :=
  if i ≤ 5 then [(8, i), (side - 1 - i, 8)]
  else if i = 6 then [(8, 7), (side - 7, 8)]
  else if i = 7 then [(8, 8), (side - 8, 8)]
  else if i = 8 then [(7, 8), (8, side - 7)]
  else [(14 - i, 8), (8, side - 15 + i)]

/-- The two positions of bit i of the version word, i = 0 to 17 (R105). -/
def versionCells (side i : Nat) : List (Nat × Nat) :=
  [(side - 11 + i % 3, i / 3), (i / 3, side - 11 + i % 3)]

/-- The 15 format bits at their 30 positions (R103), the value of bit i given by `bit i`. -/
def formatStrokes (side : Nat) (bit : Nat → Bool) : List Stroke :=
  (List.range 15).flatMap fun i => (formatCells side i).map fun (x, y) => ⟨x, y, bit i⟩

/-- The 18 version bits at their 36 positions (R105), for V ≥ 7; none below. -/
def versionStrokes (version : Nat) (bit : Nat → Bool) : List Stroke :=
  if 7 ≤ version then
    (List.range 18).flatMap fun i => (versionCells (innerSide version) i).map fun (x, y) => ⟨x, y, bit i⟩
  else []

/-- Step 5: format and version reservations, light (R94). -/
def reserveStep (version : Nat) : List Stroke :=
  formatStrokes (innerSide version) (fun _ => false) ++ versionStrokes version (fun _ => false)

/-- The writes of SYM_FUNCTION, in the order of its five steps (43_symbol.md R98). -/
def functionStrokes (version : Nat) : List Stroke :=
  finderStep (innerSide version) ++ timingStep (innerSide version) ++ alignmentStep version ++
    darkModuleStep version ++ reserveStep version

/-- The same modules, each written 1: how fset writes FUNC and USED (R89). -/
def allDark (ks : List Stroke) : List Stroke := ks.map fun k => ⟨k.x, k.y, true⟩

/-- The FINDER overlay (R95): the 147 modules of the three finder patterns. -/
def finderOverlay (version : Nat) : Grid :=
  Grid.zero.paint ((finderCorners (innerSide version)).flatMap fun (fx, fy) => ringSquare fx fy 7 (fun _ => true))

/-- The LASTALIGN overlay (R95): the 25 modules of the pattern centred at (C[n−1], C[n−1]); none for V = 1. -/
def lastAlignOverlay (version : Nat) : Grid :=
  match (alignCenters version).getLast? with
  | none => Grid.zero
  | some c => Grid.zero.paint (ringSquare (c - 2) (c - 2) 5 (fun _ => true))

end Sys2Proof.Machine
end

