-- ==== Sys2Proof/Machine/Symbol.lean ====
section
/-! DEFINITION. The symbol family (43_symbol.md): allocate, paint the function patterns, place the data. -/

namespace Sys2Proof.Machine

/-- The symbol registers SYM_INIT leaves for version V and a level (R97, 10_state.md R35). -/
def initSymRegs (version : BitVec 6) (level : Level) : SymRegs :=
  { version := version, level := level, mask := 0,
    inner := BitVec.ofNat 8 (innerSide version.toNat),
    size := BitVec.ofNat 8 (innerSide version.toNat + 8),
    free := BitVec.ofNat 16 (innerSide version.toNat * innerSide version.toNat),
    fpTL := ⟨4, 4⟩,
    fpTR := ⟨BitVec.ofNat 8 (4 + innerSide version.toNat - 7), 4⟩,
    fpBL := ⟨4, BitVec.ofNat 8 (4 + innerSide version.toNat - 7)⟩,
    fmtWord := 0, verWord := 0 }

/-- SYM_INIT (R97): allowed in every phase. -/
def execSymInit (s : State) : Host.Outcome State Fault Refusal :=
  match versionOperand s.latch.arg0, levelOperand s.latch.arg1 with
  | some v, some lvl =>
    { s with grids := Grids.zero, sym := initSymRegs v lvl, pen := PenRegs.zero, phase := .init : State }.finish
  | _, _ => s.fail .operand

/-- The grids after the five painting steps and the overlays (R89 to R95); OUT is not written (R98). -/
def paintFunction (g : Grids) (version : Nat) : Grids :=
  { g with
    module := g.module.paint (functionStrokes version),
    func := g.func.paint (allDark (functionStrokes version)),
    used := g.used.paint (allDark (functionStrokes version)),
    finder := finderOverlay version,
    lastAlign := lastAlignOverlay version }

/-- SYM_FUNCTION (R98): only in phase INIT. -/
def execSymFunction (s : State) : Host.Outcome State Fault Refusal :=
  if s.phase ≠ .init then s.fail .sequence
  else
    let g := paintFunction s.grids s.versionNat
    { s with
      grids := g, sym := { s.sym with free := BitVec.ofNat 16 (g.used.countInner s.side false) },
      phase := .func : State }.finish

/-- The rows of a column pair in direction order (R99). -/
def pairRows (side : Nat) (up : Bool) : List Nat := if up then (List.range side).reverse else List.range side

/-- R99's loop from column x on, at most `fuel` column pairs more. -/
def zigzagFrom (side : Nat) : Nat → Nat → Bool → List (Nat × Nat)
  | 0, _, _ => []
  | fuel + 1, x, up =>
    if x < 1 then []
    else
      let x' := if x = 6 then 5 else x
      (pairRows side up).flatMap (fun y => [(x', y), (x' - 1, y)]) ++ zigzagFrom side fuel (x' - 2) (!up)

/-- The placement order (R99); a symbol of side s has (s − 1)/2 column pairs, so s rounds are enough. -/
def zigzag (side : Nat) : List (Nat × Nat) := zigzagFrom side side (side - 1) true

/-- The positions of the placement order with USED = 0, in order (R100). No position occurs twice in the order (R99),
so USED at its turn is USED when the command starts. -/
def freeCells (used : Grid) (side : Nat) : List (Nat × Nat) :=
  (zigzag side).filter fun (x, y) => !used.readInner x y

/-- The writes of SYM_PLACE (R100): bit i of the stream to the i-th free position. -/
def placeStrokes (used : Grid) (side : Nat) (bits : Bits) : List Stroke :=
  List.zipWith (fun (p : Nat × Nat) b => ⟨p.1, p.2, b⟩) (freeCells used side) bits

/-- SYM_PLACE (R100): only in phase FUNC, with exactly one bit per free module. -/
def execSymPlace (ss : BufIdx) (s : State) : Host.Outcome State Fault Refusal :=
  if s.phase ≠ .func then s.fail .sequence
  else if s.len ss ≠ s.sym.free.toNat then s.fail .placeLength
  else
    let ks := placeStrokes s.grids.used s.side (s.buf ss)
    { s with
      grids := { s.grids with module := s.grids.module.paint ks, used := s.grids.used.paint (allDark ks) },
      sym := { s.sym with free := 0 }, phase := .placed : State }.finish

end Sys2Proof.Machine
end

