-- ==== Sys2Proof/Machine/Mask.lean ====
section
/-! DEFINITION. The mask family (44_mask.md): mask predicates, format and version words, masked symbol, penalty, mask
selection. -/

namespace Sys2Proof.Machine

/-! ## Mask predicates -/

/-- `mask(m, x, y)` (R101). -/
def maskAt (m : MaskIdx) (x y : Nat) : Bool :=
  match m with
  | 0 => (x + y) % 2 = 0
  | 1 => y % 2 = 0
  | 2 => x % 3 = 0
  | 3 => (x + y) % 3 = 0
  | 4 => (y / 2 + x / 3) % 2 = 0
  | 5 => x * y % 2 + x * y % 3 = 0
  | 6 => (x * y % 2 + x * y % 3) % 2 = 0
  | 7 => ((x + y) % 2 + x * y % 3) % 2 = 0

/-! ## Format and version words -/

/-- One step of GF(2) polynomial division: the divisor g, of degree dg, is taken off at x^i. -/
def gf2Step (g dg v i : Nat) : Nat := if v.testBit (i + dg) then v ^^^ g <<< i else v

/-- `v mod₂ g` (R102) for v of degree at most top and g of degree dg. -/
def gf2Mod (v g dg top : Nat) : Nat := (List.range (top + 1 - dg)).reverse.foldl (gf2Step g dg) v

/-- The 2-bit level code (R102): L=01, M=00, Q=11, H=10. -/
def Level.code : Level → Nat
  | .l => 1
  | .m => 0
  | .q => 3
  | .h => 2

/-- The format word (R102). -/
def formatWord (lvl : Level) (m : MaskIdx) : BitVec 15 :=
  let d := (lvl.code <<< 3 ||| m.val) <<< 10
  BitVec.ofNat 15 ((d ||| gf2Mod d 0x537 10 14) ^^^ 0x5412)

/-- The version word of V ≥ 7 (R104), and 0 below (10_state.md R37). -/
def versionWord (version : Nat) : BitVec 18 :=
  if 7 ≤ version then BitVec.ofNat 18 (version <<< 12 ||| gf2Mod (version <<< 12) 0x1F25 12 17) else 0

/-! ## The masked symbol -/

/-- `build(m)` (R113): masked data modules, then the format bits, then the version bits. -/
def State.build (s : State) (m : MaskIdx) : Grid :=
  ((Grid.tabulate s.side fun x y =>
      s.grids.module.readInner x y ^^ (!s.grids.func.readInner x y && maskAt m x y)).paint
    (formatStrokes s.side fun i => (formatWord s.sym.level m).getLsbD i)).paint
    (versionStrokes s.versionNat fun i => (versionWord s.versionNat).getLsbD i)

/-- The symbol registers after mask m is applied or chosen (R114, R116). -/
def State.maskedRegs (s : State) (m : MaskIdx) : SymRegs :=
  { s.sym with
    mask := BitVec.ofNat 3 m.val, fmtWord := formatWord s.sym.level m, verWord := versionWord s.versionNat }

/-! ## Penalty -/

/-- The lengths of the maximal runs of a line (R107), `c` the colour and `k` the length of the run being read. -/
def runsFrom (c : Bool) (k : Nat) : List Bool → List Nat
  | [] => [k]
  | b :: bs => if b = c then runsFrom c (k + 1) bs else k :: runsFrom b 1 bs

/-- The lengths of the maximal runs of a line. -/
def runLengths : List Bool → List Nat
  | [] => []
  | b :: bs => runsFrom b 1 bs

/-- What a maximal run of length k adds to N1 (R107). -/
def runScore (k : Nat) : Nat := if 5 ≤ k then 3 + (k - 5) else 0

/-- N1 of one line (R107). -/
def lineN1 (line : List Bool) : Nat := ((runLengths line).map runScore).sum

/-- N2 of two adjacent rows (R108): 3 for each 2 × 2 block of one colour. -/
def rowPairN2 : List Bool → List Bool → Nat
  | a :: b :: r, c :: d :: q =>
    (if a = b ∧ a = c ∧ a = d then 3 else 0) + rowPairN2 (b :: r) (d :: q)
  | _, _ => 0

/-- N2 (R108). -/
def rowsN2 : List (List Bool) → Nat
  | r :: q :: rest => rowPairN2 r q + rowsN2 (q :: rest)
  | _ => 0

/-- The pattern `10111010000` (R109). -/
def patternA : List Bool := [true, false, true, true, true, false, true, false, false, false, false]

/-- The pattern `00001011101` (R109). -/
def patternB : List Bool := [false, false, false, false, true, false, true, true, true, false, true]

/-- N3 of one line (R109): every start index is tried, 40 for each occurrence of either pattern. -/
def lineN3 : List Bool → Nat
  | [] => 0
  | b :: bs => (if (b :: bs).take 11 = patternA ∨ (b :: bs).take 11 = patternB then 40 else 0) + lineN3 bs

/-- N4 (R110) of `dark` dark modules among `total`. -/
def scoreN4 (dark total : Nat) : Nat := 10 * (absDiff (100 * dark) (50 * total) / (5 * total))

/-- The columns x = 0 .. side − 1 of a square of rows. -/
def columnsOf (side : Nat) (rows : List (List Bool)) : List (List Bool) :=
  rows.foldr (List.zipWith List.cons) (List.replicate side [])

/-- The four parts of a penalty and the dark count. -/
structure Score where
  n1 : Nat
  n2 : Nat
  n3 : Nat
  n4 : Nat
  dark : Nat
  deriving DecidableEq, Repr

/-- N1 + N2 + N3 + N4 (R111). -/
def Score.total (p : Score) : Nat := p.n1 + p.n2 + p.n3 + p.n4

/-- The penalty of the inner part of a grid (R106 to R111). -/
def scoreGrid (g : Grid) (side : Nat) : Score :=
  let rows := g.innerRows side
  let lines := rows ++ columnsOf side rows
  let dark := (rows.map (List.count true)).sum
  { n1 := (lines.map lineN1).sum, n2 := rowsN2 rows, n3 := (lines.map lineN3).sum,
    n4 := scoreN4 dark (side * side), dark := dark }

/-- The penalty registers a score is written to (R115, R116); PEN_MASK0 to 7 as they were. -/
def PenRegs.setScore (p : PenRegs) (c : Score) : PenRegs :=
  { p with
    total := BitVec.ofNat 32 c.total, n1 := BitVec.ofNat 32 c.n1, n2 := BitVec.ofNat 32 c.n2,
    n3 := BitVec.ofNat 32 c.n3, n4 := BitVec.ofNat 32 c.n4, dark := BitVec.ofNat 32 c.dark }

/-- The penalty of trial m (R116). -/
def State.trial (s : State) (m : MaskIdx) : Score := scoreGrid (s.build m) s.side

/-- The least index m, searched upward from `best`, whose total is least: a later mask wins only when strictly lower
(R116: ties go to the lowest index). -/
def leastFrom (total : MaskIdx → Nat) (best : MaskIdx) : List MaskIdx → MaskIdx
  | [] => best
  | m :: ms => leastFrom total (if total m < total best then m else best) ms

/-- The chosen mask (R116). -/
def bestMask (total : MaskIdx → Nat) : MaskIdx := leastFrom total 0 [1, 2, 3, 4, 5, 6, 7]

/-! ## Commands -/

/-- SYM_APPLY_MASK (R114). -/
def execSymApplyMask (m : MaskIdx) (s : State) : Host.Outcome State Fault Refusal :=
  if !s.phase.allowsMask then s.fail .sequence
  else
    { s with grids := { s.grids with out := s.build m }, sym := s.maskedRegs m, phase := .masked : State }.finish

/-- SYM_SCORE (R115). -/
def execSymScore (s : State) : Host.Outcome State Fault Refusal :=
  if !s.phase.allowsScore then s.fail .sequence
  else { s with pen := s.pen.setScore (scoreGrid s.grids.out s.side) : State }.finish

/-- SYM_SELECT_MASK (R116). The eight trials are computed once, into a vector. -/
def execSymSelectMask (s : State) : Host.Outcome State Fault Refusal :=
  if !s.phase.allowsMask then s.fail .sequence
  else
    let trials : Vector Score 8 := Vector.ofFn fun m => s.trial m
    let best := bestMask fun m => trials[m].total
    { s with
      grids := { s.grids with out := s.build best }, sym := s.maskedRegs best,
      pen := { s.pen.setScore trials[best] with perMask := trials.map fun c => BitVec.ofNat 32 c.total },
      phase := .final : State }.finish

end Sys2Proof.Machine
end

