-- ==== Sys2Proof/Machine/ReedSolomon.lean ====
section
/-! DEFINITION. GF(256) arithmetic and Reed-Solomon (42_gf_rs.md). -/

namespace Sys2Proof.Machine

/-! ## The field -/

/-- `xtime(v)` (R78): 2·v, reduced by 0x11D when it is 256 or more. -/
def xtime (v : Byte) : Byte := if v.getLsbD 7 then v <<< 1 ^^^ 0x1D else v <<< 1

/-- The product of two elements (R77): the polynomial product modulo x^8 + x^4 + x^3 + x^2 + 1, by Horner's rule on the
coefficients of a. R80's law EXP[LOG a + LOG b] is a statement about it. -/
def gfMul (a b : Byte) : Byte :=
  (List.range 8).foldl (fun acc j => xtime acc ^^^ (if a.getLsbD (7 - j) then b else 0)) 0

/-- EXP[0..254] (R78): the powers of α = 2. -/
def expTable : List Byte := List.iterate xtime 1 255

/-- EXP[i] (R78); EXP[i] = EXP[i − 255] from 255 on. -/
def gfExp (i : Nat) : Byte := expTable.getD (i % 255) 0

/-- LOG[a] (R79): the index of a in EXP[0..254], for a ≠ 0. -/
def gfLog (a : Byte) : Nat := expTable.idxOf a

/-! ## Reed-Solomon -/

/-- One round of R81's loop: G times (x + r), coefficients high-order first. -/
def mulByRoot (g : List Byte) (r : Byte) : List Byte :=
  List.zipWith (· ^^^ ·) (g ++ [0]) (0 :: g.map (gfMul · r))

/-- `G_t[0..t]`, the generator polynomial for t parity symbols (R81). -/
def genPoly (t : Nat) : List Byte := (List.range t).foldl (fun g i => mulByRoot g (gfExp i)) [1]

/-- One round of R83's loop: the remainder register `rem` takes in codeword d; `g` is G_t[1..t]. -/
def divideStep (g rem : List Byte) (d : Byte) : List Byte :=
  match rem with
  | [] => []
  | r0 :: rs => List.zipWith (fun r c => r ^^^ gfMul c (d ^^^ r0)) (rs ++ [0]) g

/-- The t parity codewords of data d, high-order first (R82, R83). -/
def parity (d : List Byte) (t : Nat) : List Byte := d.foldl (divideStep (genPoly t).tail) (List.replicate t 0)

/-- The k codewords of a bitstream from byte lo on (R88). -/
def codewordsAt (b : Bits) (lo k : Nat) : List Byte := (List.range k).map fun j => byteAt b (lo + j)

/-! ## Commands -/

/-- GF_MUL (R84). -/
def execGfMul (s : State) : Host.Outcome State Fault Refusal :=
  match byteOperand s.latch.arg0, byteOperand s.latch.arg1 with
  | some a, some b => (s.setResult ((gfMul a b).setWidth 32)).finish
  | _, _ => s.fail .operand

/-- GF_EXP (R85). -/
def execGfExp (s : State) : Host.Outcome State Fault Refusal :=
  if s.op0 > 511 then s.fail .operand
  else (s.setResult ((gfExp s.op0).setWidth 32)).finish

/-- GF_LOG (R86). -/
def execGfLog (s : State) : Host.Outcome State Fault Refusal :=
  match byteOperand s.latch.arg0 with
  | some a => if a = 0 then s.fail .operand else (s.setResult (BitVec.ofNat 32 (gfLog a))).finish
  | none => s.fail .operand

/-- RS_GENPOLY (R87): the t + 1 coefficients of G_t, t = ARG0. -/
def execRsGenpoly (sd : BufIdx) (s : State) : Host.Outcome State Fault Refusal :=
  if s.op0 > 255 then s.fail .operand
  else if !s.fits sd (8 * (s.op0 + 1)) then s.fail .overflow
  else (s.appendBuf sd (bytesBits (genPoly s.op0))).finish

/-- RS_ENCODE (R88): the ARG2 parity codewords of the ARG1 codewords of BS[SS] from byte ARG0 on. -/
def execRsEncode (sd ss : BufIdx) (s : State) : Host.Outcome State Fault Refusal :=
  if s.op1 + s.op2 > 255 then s.fail .rsLength
  else if 8 * (s.op0 + s.op1) > s.len ss then s.fail .bounds
  else if !s.fits sd (8 * s.op2) then s.fail .overflow
  else (s.appendBuf sd (bytesBits (parity (codewordsAt (s.buf ss) s.op0 s.op1) s.op2))).finish

end Sys2Proof.Machine
end

