-- ==== Sys2Proof/Machine/Dispatch.lean ====
section
/-! DEFINITION. One arm per command, each a direct call of its meaning. -/

namespace Sys2Proof.Machine

def exec (i : Instr) (s : State) : Host.Outcome State Fault Refusal :=
  match i with
  | .nop => Sys2Proof.Machine.execNop s
  | .bsClear sd => Sys2Proof.Machine.execBsClear sd s
  | .bsAppendBits sd n => Sys2Proof.Machine.execBsAppendBits sd n s
  | .bsAppendBools sd b => Sys2Proof.Machine.execBsAppendBools sd b s
  | .bsAppend sd ss => Sys2Proof.Machine.execBsAppend sd ss s
  | .bsSubstr sd ss => Sys2Proof.Machine.execBsSubstr sd ss s
  | .bsByteAt ss => Sys2Proof.Machine.execBsByteAt ss s
  | .gfMul => Sys2Proof.Machine.execGfMul s
  | .gfExp => Sys2Proof.Machine.execGfExp s
  | .gfLog => Sys2Proof.Machine.execGfLog s
  | .rsGenpoly sd => Sys2Proof.Machine.execRsGenpoly sd s
  | .rsEncode sd ss => Sys2Proof.Machine.execRsEncode sd ss s
  | .symInit => Sys2Proof.Machine.execSymInit s
  | .symFunction => Sys2Proof.Machine.execSymFunction s
  | .symPlace ss => Sys2Proof.Machine.execSymPlace ss s
  | .symApplyMask m => Sys2Proof.Machine.execSymApplyMask m s
  | .symScore => Sys2Proof.Machine.execSymScore s
  | .symSelectMask => Sys2Proof.Machine.execSymSelectMask s

end Sys2Proof.Machine
end

