-- ==== Sys2Proof/Machine/Engine.lean ====
section
/-! DEFINITION. The command engine (10_state.md R12(b)): it decodes the latched word and runs the command, in one step
(20_memory.md R50); and which agent moves next (70_reset_and_hazards.md R154). -/

namespace Sys2Proof.Machine

/-- A command word as the latch of a state holds it. -/
def fetch (s : State) : Except DecodeError Instr := decode s.latch.word

/-- The engine's step: the latched command runs (R137); a word of no command ends with ILLEGAL (30_encoding.md R63). -/
def engineStep (s : State) : Host.Outcome State Fault Refusal :=
  match fetch s with
  | .ok i => exec i s
  | .error _ => s.fail .illegal

/-- Is the next step the engine's? It is enabled while BUSY = 1 (R154); it is taken when the host steps that come before
it are used up or the host sends nothing more (log 3). -/
def State.engineMoves (s : State) : Bool := s.busy && (s.env.hold == 0 || s.env.inbox.isEmpty)

/-- One step of the block and its environment: of one agent (60_exceptions.md R141). -/
def agentStep (s : State) : Host.Outcome State Fault Refusal :=
  if s.engineMoves then engineStep s else hostStep s

/-- The state in which word w has just been accepted as a command and its engine step is next: CMD and the latch as
R137 leaves them, BUSY = 1, nothing before the engine step. -/
def State.withCommand (s : State) (w : Word) : State :=
  { s with
    busy := true, cmd := w, latch := ⟨w, s.arg0, s.arg1, s.arg2⟩, env := { s.env with hold := 0 } }

end Sys2Proof.Machine
end

