-- ==== Sys2Proof/Machine/Step.lean ====
section
/-! DEFINITION. The step of the machine, and the placing of a command where the next step runs it. -/

namespace Sys2Proof.Machine

/-- One step (60_exceptions.md R141: one host access, one reset pulse or one engine step). -/
def step (s : State) : Host.Outcome State Fault Refusal := agentStep s

/-- The command word `w` of `nbits` bits (bits above are 0) in the engine's latch, as its acceptance leaves it, so that
the next step runs it. Log 6. -/
def State.withFetchWord (s : State) (nbits w : Nat) : State := s.withCommand (BitVec.ofNat 32 (w % 2 ^ nbits))

end Sys2Proof.Machine
end

