-- ==== Sys2Proof/Safety.lean ====
section
/-! DEFINITION. The terms claims are stated in: safe states, the two ends of a command with their frames, the
invariants, and readings of the rules that do not go through the machine's own functions. -/

namespace Sys2Proof.Machine

/-! ## Safe runs and the ends of a command -/

/-- No error is recorded: the premise of a claim about a program (60_exceptions.md R139). -/
abbrev Safe (s : State) : Prop := s.err = false

/-- The status after `done` (R135): BUSY 0, DONE 1; ERR, DROP, ERRCODE, ERRCMD as before; the engine idle. -/
structure DoneEnd (s t : State) : Prop where
  busy : t.busy = false
  done : t.done = true
  err : t.err = s.err
  drop : t.drop = s.drop
  errCode : t.errCode = s.errCode
  errCmd : t.errCmd = s.errCmd
  latch : t.latch = Latch.idle

/-- What no command writes: INT_EN, CMD, ARG0 to ARG2 (10_state.md R22), and the environment. -/
structure HostSideKept (s t : State) : Prop where
  intEn : t.intEn = s.intEn
  cmd : t.cmd = s.cmd
  arg0 : t.arg0 = s.arg0
  arg1 : t.arg1 = s.arg1
  arg2 : t.arg2 = s.arg2
  env : t.env = s.env

/-- The symbol state as before: PHASE, symbol and penalty registers, grids. -/
structure SymbolKept (s t : State) : Prop where
  phase : t.phase = s.phase
  sym : t.sym = s.sym
  pen : t.pen = s.pen
  grids : t.grids = s.grids

/-- Every bitstream buffer as before. -/
def BufsKept (s t : State) : Prop := ∀ j : BufIdx, t.buf j = s.buf j

/-- Every bitstream buffer but one as before. -/
def BufsKeptBut (sd : BufIdx) (s t : State) : Prop := ∀ j : BufIdx, j ≠ sd → t.buf j = s.buf j

/-- The frame of a command that ends with `done` and writes one buffer. -/
def BufferFrame (sd : BufIdx) (s t : State) : Prop :=
  DoneEnd s t ∧ HostSideKept s t ∧ SymbolKept s t ∧ t.result = s.result ∧ BufsKeptBut sd s t

/-- The frame of a command that ends with `done` and writes only RESULT. -/
def ResultFrame (s t : State) : Prop := DoneEnd s t ∧ HostSideKept s t ∧ SymbolKept s t ∧ BufsKept s t

/-- The frame of a command that ends with `done` and writes only symbol state. -/
def SymbolFrame (s t : State) : Prop := DoneEnd s t ∧ HostSideKept s t ∧ t.result = s.result ∧ BufsKept s t

/-- The state after `raise Err(code)` (R136), field by field. -/
def errorState (s : State) (code : ErrCode) : State :=
  { s with busy := false, err := true, errCode := code, errCmd := s.latch.word, latch := Latch.idle }

/-- A command ends with an error and nothing but the four fields of R136 changes. -/
def EndsWith (code : ErrCode) (i : Instr) (s : State) : Prop := exec i s = .next (errorState s code)

/-! ## Host turns -/

/-- The next step is the host's, and `op` arrives, `rest` after it. -/
abbrev HostTurn (s : State) (op : BusOp) (rest : List BusOp) : Prop :=
  (s.busy = false ∨ s.env.hold ≠ 0) ∧ s.env.inbox = op :: rest

/-- An operation the block gives a meaning: a 32-bit access at a multiple of 4, a `wait`, a reset pulse
(20_memory.md R46). -/
def BusOp.defined : BusOp → Bool
  | .read off width => width = .w32 && off.toNat % 4 = 0
  | .write off width _ => width = .w32 && off.toNat % 4 = 0
  | .writeLast off => off.toNat % 4 = 0
  | .wait => true
  | .hwReset => true

/-- The environment after one operation was taken from the inbox. -/
def Env.taken (e : Env) (rest : List BusOp) : Env := { e with inbox := rest, hold := e.hold - 1 }

/-- The environment after a read was taken and answered. -/
def Env.answered (e : Env) (rest : List BusOp) (off : BitVec 16) (v : Word) : Env :=
  { e with inbox := rest, hold := e.hold - 1, reads := (off, v) :: e.reads }

/-- The offsets of the registers of 10_state.md R14. -/
def registerOffsets : List Nat :=
  [0x000, 0x004, 0x008, 0x00C, 0x010, 0x014, 0x018, 0x01C, 0x020, 0x024, 0x02C, 0x030, 0x034, 0x038, 0x03C, 0x040,
    0x044, 0x048, 0x04C, 0x050, 0x054, 0x058, 0x05C, 0x060, 0x064, 0x068, 0x06C, 0x070, 0x074, 0x078, 0x07C, 0x080,
    0x084, 0x0A0, 0x0A4, 0x0A8, 0x0AC, 0x0B0, 0x0B4, 0x0B8, 0x0BC]

/-- An offset at which nothing stands (R14, 20_memory.md R44). -/
abbrev ReservedOffset (off : BitVec 16) : Prop :=
  (off.toNat < 0x2000 ∧ off.toNat ∉ registerOffsets) ∨ 0xE000 ≤ off.toNat

/-- The offsets whose writes have an effect (20_memory.md R51): CTRL, STATUS, INT_EN, CMD, ARG0 to ARG2. -/
def writableOffsets : List Nat := [0x004, 0x008, 0x00C, 0x018, 0x01C, 0x020, 0x024]

/-- The offsets whose reads are exact at all times (R52); CTRL always reads 0. -/
def exactOffsets : List Nat := [0x000, 0x004, 0x008, 0x00C, 0x018, 0x01C, 0x020, 0x024]

/-- STATUS.PHASE as a number (R27). -/
def phaseNumber : Phase → Nat
  | .empty => 0
  | .init => 1
  | .func => 2
  | .placed => 3
  | .masked => 4
  | .final => 5

/-- The level index as a number (R29, 30_encoding.md R61). -/
def levelNumber : Level → Nat
  | .l => 0
  | .m => 1
  | .q => 2
  | .h => 3

/-- An error code as a number (60_exceptions.md R133). -/
def errNumber : ErrCode → Nat
  | .none => 0
  | .illegal => 1
  | .operand => 2
  | .bounds => 3
  | .overflow => 4
  | .rsLength => 5
  | .sequence => 6
  | .placeLength => 7

/-- A point as a number (R35): X in bits 7:0, Y in bits 15:8. -/
def pointNumber (p : Point) : Nat := p.x.toNat + 2 ^ 8 * p.y.toNat

/-- What every register of R14 reads where the read is exact: its offset, and the number its fields make at the bit
positions of R15 to R39. -/
def registerReads (s : State) : List (Nat × Nat) :=
  [ (0x000, 0x51525342), (0x004, 0),
    (0x008, s.busy.toNat + 2 * s.done.toNat + 4 * s.err.toNat + 8 * s.drop.toNat + 16 * phaseNumber s.phase),
    (0x00C, 2 * s.intEn.done.toNat + 4 * s.intEn.err.toNat + 8 * s.intEn.drop.toNat),
    (0x010, errNumber s.errCode), (0x014, s.errCmd.toNat), (0x018, s.cmd.toNat), (0x01C, s.arg0.toNat),
    (0x020, s.arg1.toNat), (0x024, s.arg2.toNat), (0x02C, s.result.toNat) ] ++
  [ (0x030, s.len 0), (0x034, s.len 1), (0x038, s.len 2), (0x03C, s.len 3) ] ++
  [ (0x040, s.versionNat), (0x044, levelNumber s.sym.level), (0x048, s.sym.mask.toNat), (0x04C, s.sym.inner.toNat),
    (0x050, s.sym.size.toNat), (0x054, 4), (0x058, s.sym.free.toNat), (0x05C, pointNumber s.sym.fpTL),
    (0x060, pointNumber s.sym.fpTR), (0x064, pointNumber s.sym.fpBL), (0x068, s.sym.fmtWord.toNat),
    (0x06C, s.sym.verWord.toNat) ] ++
  [ (0x070, s.pen.total.toNat), (0x074, s.pen.n1.toNat), (0x078, s.pen.n2.toNat), (0x07C, s.pen.n3.toNat),
    (0x080, s.pen.n4.toNat), (0x084, s.pen.dark.toNat) ] ++
  [ (0x0A0, s.pen.perMask[0].toNat), (0x0A4, s.pen.perMask[1].toNat), (0x0A8, s.pen.perMask[2].toNat),
    (0x0AC, s.pen.perMask[3].toNat), (0x0B0, s.pen.perMask[4].toNat), (0x0B4, s.pen.perMask[5].toNat),
    (0x0B8, s.pen.perMask[6].toNat), (0x0BC, s.pen.perMask[7].toNat) ]

/-- The windows of 20_memory.md R49: base offset and grid. -/
def windowBases (g : Grids) : List (Nat × Grid) :=
  [(0x2000, g.out), (0x4000, g.module), (0x6000, g.func), (0x8000, g.used), (0xA000, g.finder), (0xC000, g.lastAlign)]

/-! ## Command words -/

/-- R62's opcodes, each with the mask of its fields (R60): SD 0x300, SS 0xC00, B 0x1000, N 0x3F0000, M 0x70000. -/
def commandFields : List (Word × Word) :=
  [(0x00, 0), (0x01, 0x300), (0x02, 0x3F0300), (0x03, 0x1300), (0x04, 0xF00), (0x05, 0xF00), (0x06, 0xC00),
    (0x10, 0), (0x11, 0), (0x12, 0), (0x13, 0x300), (0x14, 0xF00), (0x20, 0), (0x21, 0), (0x22, 0xC00),
    (0x23, 0x70000), (0x24, 0), (0x25, 0)]

/-- The word has a listed OP byte and no bit set outside that opcode's fields (R59). -/
abbrev LegalWord (w : Word) : Prop := ∃ p ∈ commandFields, w &&& 0xFF = p.1 ∧ w &&& ~~~(0xFF ||| p.2) = 0

/-! ## GF(256) polynomials -/

/-- The value at x of a polynomial with coefficients high-order first (42_gf_rs.md R82). -/
def polyEval (c : List Byte) (x : Byte) : Byte := c.foldl (fun acc b => gfMul acc x ^^^ b) 0

/-- The bits of b from `lo` on are the codewords d, each MSB-first (00_scope.md R7). -/
def BytesAt (b : Bits) (lo : Nat) (d : List Byte) : Prop :=
  ∀ i < d.length, ∀ j < 8, b[lo + 8 * i + j]? = d[i]?.map fun c => c.getLsbD (7 - j)

/-- The carry-less product of two numbers read as polynomials over GF(2), b of degree below 32. -/
def carrylessMul (a b : Nat) : Nat :=
  (List.range 32).foldl (fun acc i => if b.testBit i then acc ^^^ a <<< i else acc) 0

/-! ## Function modules, read from the rules -/

/-- (x, y) lies in the square with top-left (x0, y0) and side n. -/
abbrev InSquare (x y x0 y0 n : Nat) : Prop := x0 ≤ x ∧ x < x0 + n ∧ y0 ≤ y ∧ y < y0 + n

/-- A finder-plus-separator area (43_symbol.md R90). -/
abbrev InFinderArea (side x y : Nat) : Prop :=
  InSquare x y 0 0 8 ∨ InSquare x y (side - 8) 0 8 ∨ InSquare x y 0 (side - 8) 8

/-- A finder pattern (R90). -/
abbrev InFinder (side x y : Nat) : Prop :=
  InSquare x y 0 0 7 ∨ InSquare x y (side - 7) 0 7 ∨ InSquare x y 0 (side - 7) 7

/-- A timing module (R91). -/
abbrev InTiming (side x y : Nat) : Prop :=
  (y = 6 ∧ 8 ≤ x ∧ x ≤ side - 9) ∨ (x = 6 ∧ 8 ≤ y ∧ y ≤ side - 9)

/-- A centre that is not skipped (R92): every pair of the list but the three at the finders. -/
abbrev AlignmentCentre (version cx cy : Nat) : Prop :=
  cx ∈ alignCenters version ∧ cy ∈ alignCenters version ∧ (cx, cy) ≠ (6, 6) ∧
    (cx, cy) ≠ (6, innerSide version - 7) ∧ (cx, cy) ≠ (innerSide version - 7, 6)

/-- A module of an alignment pattern (R92). -/
abbrev InAlignment (version x y : Nat) : Prop :=
  ∃ cx ∈ alignCenters version, ∃ cy ∈ alignCenters version,
    AlignmentCentre version cx cy ∧ InSquare x y (cx - 2) (cy - 2) 5

/-- A module of a format copy (44_mask.md R103). -/
abbrev InFormat (side x y : Nat) : Prop := ∃ i < 15, (x, y) ∈ formatCells side i

/-- A module of a version block, V ≥ 7 (R105). -/
abbrev InVersion (version x y : Nat) : Prop :=
  7 ≤ version ∧ ∃ i < 18, (x, y) ∈ versionCells (innerSide version) i

/-- A function module (10_state.md R26): finder, separator, timing, alignment, dark module, format, version. -/
abbrev FunctionModule (version x y : Nat) : Prop :=
  InFinderArea (innerSide version) x y ∨ InTiming (innerSide version) x y ∨ InAlignment version x y ∨
    (x = 8 ∧ y = 4 * version + 9) ∨ InFormat (innerSide version) x y ∨ InVersion version x y

/-- Everything outside the inner part is light (R26: the quiet zone and the unused positions). -/
def QuietLight (g : Grid) (side : Nat) : Prop :=
  ∀ X Y, ¬(4 ≤ X ∧ X < side + 4 ∧ 4 ≤ Y ∧ Y < side + 4) → g.read X Y = false

/-- SYM_FREE after SYM_FUNCTION for V = 1 to 40 (43_symbol.md R96). -/
def freeTable : List Nat :=
  [208, 359, 567, 807, 1079, 1383, 1568, 1936, 2336, 2768, 3232, 3728, 4256, 4651, 5243, 5867, 6523, 7211, 7931, 8683,
    9252, 10068, 10916, 11796, 12708, 13652, 14628, 15371, 16411, 17483, 18587, 19723, 20891, 22091, 23008, 24272,
    25568, 26896, 28256, 29648]

/-! ## Placement and masks, read from the rules -/

/-- The right column of the p-th column pair from the right (R99): the pairs step left by two and skip column 6. -/
def pairColumn (side p : Nat) : Nat := if 6 < side - 1 - 2 * p then side - 1 - 2 * p else side - 2 - 2 * p

/-- The r-th row of the p-th column pair (R99): the pairs go up and down in turn, the first up. -/
def pairRow (side p r : Nat) : Nat := if p % 2 = 0 then side - 1 - r else r

/-- R101's eight predicates: mask m inverts module (x, y), x the column and y the row. -/
abbrev MaskInverts (m x y : Nat) : Prop :=
  (m = 0 ∧ (x + y) % 2 = 0) ∨ (m = 1 ∧ y % 2 = 0) ∨ (m = 2 ∧ x % 3 = 0) ∨ (m = 3 ∧ (x + y) % 3 = 0) ∨
    (m = 4 ∧ (y / 2 + x / 3) % 2 = 0) ∨ (m = 5 ∧ (x * y) % 2 + (x * y) % 3 = 0) ∨
    (m = 6 ∧ ((x * y) % 2 + (x * y) % 3) % 2 = 0) ∨ (m = 7 ∧ ((x + y) % 2 + (x * y) % 3) % 2 = 0)

/-! ## Penalties, read from the rules -/

/-- Row y of the inner part of a grid as a line (44_mask.md R106). -/
def rowLine (g : Grid) (side y : Nat) : List Bool := (List.range side).map fun x => g.readInner x y

/-- Column x of the inner part of a grid as a line (R106). -/
def columnLine (g : Grid) (side x : Nat) : List Bool := (List.range side).map fun y => g.readInner x y

/-- The sum of a line score over the 2·side lines (R106). -/
def sumOverLines (g : Grid) (side : Nat) (f : List Bool → Nat) : Nat :=
  ((List.range side).map fun y => f (rowLine g side y)).sum +
    ((List.range side).map fun x => f (columnLine g side x)).sum

/-- The k ≥ 1 modules from j on are a maximal run of one colour (R107). -/
abbrev MaximalRun (xs : List Bool) (j k : Nat) : Prop :=
  1 ≤ k ∧ j + k ≤ xs.length ∧ (∀ i < k, xs[j + i]? = xs[j]?) ∧ (j = 0 ∨ xs[j - 1]? ≠ xs[j]?) ∧
    xs[j + k]? ≠ xs[j]?

/-- N1 of a line (R107): 3 + (k − 5) for every maximal run of k ≥ 5. -/
def runPoints (xs : List Bool) : Nat :=
  ((List.range xs.length).map fun j => ((List.range (xs.length + 1)).map fun k =>
    if 5 ≤ k ∧ MaximalRun xs j k then 3 + (k - 5) else 0).sum).sum

/-- The modules of a line from j on read the eleven bits of a pattern (R109). -/
abbrev PatternAt (xs pat : List Bool) (j : Nat) : Prop := ∀ i < 11, xs[j + i]? = pat[i]?

/-- N3 of a line (R109): 40 for every start index with `10111010000` or `00001011101`. -/
def patternPoints (xs : List Bool) : Nat :=
  ((List.range xs.length).map fun j =>
    if j + 11 ≤ xs.length ∧
        (PatternAt xs [true, false, true, true, true, false, true, false, false, false, false] j ∨
          PatternAt xs [false, false, false, false, true, false, true, true, true, false, true] j)
    then 40 else 0).sum

/-- N2 (R108): 3 for every 2 × 2 block of one colour. -/
def blockPoints (g : Grid) (side : Nat) : Nat :=
  ((List.range (side - 1)).map fun y => ((List.range (side - 1)).map fun x =>
    if g.readInner x y = g.readInner (x + 1) y ∧ g.readInner x y = g.readInner x (y + 1) ∧
        g.readInner x y = g.readInner (x + 1) (y + 1)
    then 3 else 0).sum).sum

/-- D (R110): the number of dark modules of the inner grid. -/
def darkModules (g : Grid) (side : Nat) : Nat :=
  ((List.range side).map fun y => ((List.range side).map fun x => (g.readInner x y).toNat).sum).sum

/-- N4 (R110) over the integers. -/
def balancePoints (g : Grid) (side : Nat) : Nat :=
  10 * ((100 * (darkModules g side : Int) - 50 * (side * side : Int)).natAbs / (5 * (side * side)))

/-! ## Invariants -/

/-- Every buffer is within BS_CAP (10_state.md R24). -/
abbrev CapacityOK (s : State) : Prop := ∀ i : BufIdx, s.len i ≤ Config.bsCap

/-- RESULT holds a byte (R23, 90_conflicts.md C7). -/
abbrev ResultIsByte (s : State) : Prop := s.result.toNat < 256

/-- The engine and the status agree (R42, 60_exceptions.md R137): a command in flight is the last accepted one and no
error is recorded; an idle engine latches nothing. -/
abbrev EngineOK (s : State) : Prop :=
  if s.busy then s.err = false ∧ s.cmd = s.latch.word else s.latch = Latch.idle

/-- The symbol registers agree with the phase and the version (R27 to R35, R38, R39). -/
abbrev GeometryOK (s : State) : Prop :=
  if s.phase = .empty then s.sym = SymRegs.reset ∧ s.pen = PenRegs.zero
  else
    1 ≤ s.versionNat ∧ s.versionNat ≤ 40 ∧ s.sym.inner.toNat = 17 + 4 * s.versionNat ∧
      s.sym.size.toNat = 25 + 4 * s.versionNat ∧ s.sym.fpTL = ⟨4, 4⟩ ∧
      s.sym.fpTR.x.toNat = 14 + 4 * s.versionNat ∧ s.sym.fpTR.y = 4 ∧
      s.sym.fpBL.x = 4 ∧ s.sym.fpBL.y.toNat = 14 + 4 * s.versionNat

/-- SYM_MASK as an index. -/
def State.maskIdx (s : State) : MaskIdx := s.sym.mask.toFin

/-- The mask registers agree with the phase (R30, R36, R37): those of the mask in OUT, or zero before any mask. -/
abbrev MaskRegsOK (s : State) : Prop :=
  if s.phase.allowsScore then
    s.sym.fmtWord = formatWord s.sym.level s.maskIdx ∧ s.sym.verWord = versionWord s.versionNat
  else s.sym.mask = 0 ∧ s.sym.fmtWord = 0 ∧ s.sym.verWord = 0

/-- The grids after SYM_PLACE, for a symbol whose function patterns are those of its version (R26, R100). -/
structure PlacedGrids (s : State) : Prop where
  func : s.grids.func = (paintFunction Grids.zero s.versionNat).func
  finder : s.grids.finder = (paintFunction Grids.zero s.versionNat).finder
  lastAlign : s.grids.lastAlign = (paintFunction Grids.zero s.versionNat).lastAlign
  used : ∀ x y, x < s.side → y < s.side → s.grids.used.readInner x y = true
  usedQuiet : QuietLight s.grids.used s.side
  moduleQuiet : QuietLight s.grids.module s.side
  fixed : ∀ x y, x < s.side → y < s.side → s.grids.func.readInner x y = true →
    s.grids.module.readInner x y = (paintFunction Grids.zero s.versionNat).module.readInner x y
  free : s.sym.free = 0
  out : s.grids.out = if s.phase.allowsScore then s.build s.maskIdx else Grid.zero

/-- The grids agree with the phase (R26, R27). In phase EMPTY nothing is said of them. -/
def GridsOK (s : State) : Prop :=
  match s.phase with
  | .empty => True
  | .init => s.grids = Grids.zero ∧ s.sym.free.toNat = s.side * s.side
  | .func =>
    s.grids = paintFunction Grids.zero s.versionNat ∧ s.sym.free.toNat = s.grids.used.countInner s.side false
  | .placed => PlacedGrids s
  | .masked => PlacedGrids s
  | .final => PlacedGrids s

/-- The invariants together. -/
structure BlockOK (s : State) : Prop where
  capacity : CapacityOK s
  result : ResultIsByte s
  engine : EngineOK s
  geometry : GeometryOK s
  maskRegs : MaskRegsOK s
  grids : GridsOK s

end Sys2Proof.Machine
end

