-- ==== Sys2Proof/Certificates/Slice0/Obligations.lean ====
section
/-! DEFINITION. The statements for the provers, in the terms of Sys2Proof/Safety.lean. -/

open Sys2Proof Sys2Proof.Machine

/-! ## Command words -/

/-- R58, R59, R62: the word of every well-formed command decodes to it, with every operand. -/
def Obligations.DecodeOfEncode : Prop :=
  ∀ i : Instr, i.wellFormed = true → decode (encode i) = .ok i

/-- R59, R62, R63: a word is a command exactly when its OP byte is listed and it has no bit outside that opcode's
fields, by R60's masks; and it is then the encoding of the command, so no bit of a word is ignored. -/
def Obligations.CommandWordsAreTheLegalWords : Prop :=
  ∀ w : Word, ((∃ i, decode w = .ok i) ↔ LegalWord w) ∧
    ∀ i, decode w = .ok i → i.wellFormed = true ∧ encode i = w

/-- Words written out from R58 and R62 decode to the commands they stand for; two illegal words are rejected. -/
def Obligations.SpecWordsDecode : Prop :=
  decode 0x00000000 = .ok .nop ∧ decode 0x00040002 = .ok (.bsAppendBits 0 4) ∧
    decode 0x00001003 = .ok (.bsAppendBools 0 true) ∧ decode 0x00000604 = .ok (.bsAppend 2 1) ∧
    decode 0x00000114 = .ok (.rsEncode 1 0) ∧ decode 0x00000822 = .ok (.symPlace 2) ∧
    decode 0x00030023 = .ok (.symApplyMask 3) ∧ decode 0x00080023 = .error .unusedFieldSet ∧
    decode 0x00000007 = .error .unknownOpcode

/-! ## The engine and its steps -/

/-- R12, R137: while BUSY = 1 and the engine is next, the step is exec of the command the latched word decodes to, and
nothing around it. When the engine is next is the model's schedule (log 3). -/
def Obligations.StepRunsLatchedCommand : Prop :=
  ∀ (s : State) (i : Instr), s.busy = true → (s.env.hold = 0 ∨ s.env.inbox = []) → decode s.latch.word = .ok i →
    step s = exec i s

/-- R63, R136: a latched word that is no command ends with ILLEGAL, and nothing but the four error fields changes. -/
def Obligations.StepEndsIllegalWord : Prop :=
  ∀ s : State, s.busy = true → (s.env.hold = 0 ∨ s.env.inbox = []) → ¬ LegalWord s.latch.word →
    step s = .next (errorState s .illegal)

/-- R133, R135, R136: every command ends, with `done` (ERR, ERRCODE and ERRCMD as before) or with a listed error that
changes nothing but the four fields of R136. -/
def Obligations.EveryCommandEnds : Prop :=
  ∀ (i : Instr) (s : State), ∃ t, exec i s = .next t ∧
    (DoneEnd s t ∨ ∃ code, code ≠ .none ∧ code ≠ .illegal ∧ t = errorState s code)

/-- R22, R137: no command writes INT_EN, CMD, ARG0 to ARG2 or DROP, nor anything of the environment. -/
def Obligations.CommandsKeepHostRegisters : Prop :=
  ∀ (i : Instr) (s t : State), exec i s = .next t → HostSideKept s t ∧ t.drop = s.drop

/-- R118: bitstream, GF and RS commands do not change symbol state; symbol commands do not change the buffers. RESULT is
written by BS_BYTE_AT, GF_MUL, GF_EXP and GF_LOG alone (R23). -/
def Obligations.FamiliesKeepEachOthersState : Prop :=
  ∀ (i : Instr) (s t : State), exec i s = .next t →
    match i with
    | .nop => SymbolKept s t ∧ BufsKept s t ∧ t.result = s.result
    | .bsClear sd => SymbolKept s t ∧ BufsKeptBut sd s t ∧ t.result = s.result
    | .bsAppendBits sd _ => SymbolKept s t ∧ BufsKeptBut sd s t ∧ t.result = s.result
    | .bsAppendBools sd _ => SymbolKept s t ∧ BufsKeptBut sd s t ∧ t.result = s.result
    | .bsAppend sd _ => SymbolKept s t ∧ BufsKeptBut sd s t ∧ t.result = s.result
    | .bsSubstr sd _ => SymbolKept s t ∧ BufsKeptBut sd s t ∧ t.result = s.result
    | .rsGenpoly sd => SymbolKept s t ∧ BufsKeptBut sd s t ∧ t.result = s.result
    | .rsEncode sd _ => SymbolKept s t ∧ BufsKeptBut sd s t ∧ t.result = s.result
    | .bsByteAt _ => SymbolKept s t ∧ BufsKept s t
    | .gfMul => SymbolKept s t ∧ BufsKept s t
    | .gfExp => SymbolKept s t ∧ BufsKept s t
    | .gfLog => SymbolKept s t ∧ BufsKept s t
    | .symInit => BufsKept s t ∧ t.result = s.result
    | .symFunction => BufsKept s t ∧ t.result = s.result
    | .symPlace _ => BufsKept s t ∧ t.result = s.result
    | .symApplyMask _ => BufsKept s t ∧ t.result = s.result
    | .symScore => BufsKept s t ∧ t.result = s.result
    | .symSelectMask => BufsKept s t ∧ t.result = s.result

/-- R56, R153: a command uses the latched operands, so host writes to ARG0 to ARG2 while it runs change nothing of what
it does. -/
def Obligations.RunningCommandIgnoresArgWrites : Prop :=
  ∀ (i : Instr) (s t : State) (a b c : Word), exec i s = .next t →
    exec i { s with arg0 := a, arg1 := b, arg2 := c } = .next { t with arg0 := a, arg1 := b, arg2 := c }

/-- R141, R154: after an accepted command BUSY is 0 again after finitely many steps, because the command ended or because
a reset in between abandoned it. The bound, the host steps the environment lets come before
the engine step, is the model's own (log 3), and accesses that R46 gives no meaning are excluded. -/
def Obligations.AcceptedCommandEnds : Prop :=
  ∀ s : State, s.busy = true → (∀ op ∈ s.env.inbox, op.defined = true) →
    ∃ (k : Nat) (t : State), k ≤ s.env.hold + 1 ∧ Host.Core.run Sys2Proof.core k s = .next t ∧ t.busy = false

/-! ## Control and bitstream commands -/

/-- R71, R117: in every state NOP ends with `done` and changes nothing else, and BS_CLEAR empties BS[SD] and leaves the
other buffers. -/
def Obligations.NopAndBsClearComplete : Prop :=
  ∀ (s : State) (sd : BufIdx),
    (∃ t, exec .nop s = .next t ∧ ResultFrame s t ∧ t.result = s.result) ∧
    (∃ t, exec (.bsClear sd) s = .next t ∧ t.buf sd = [] ∧ BufferFrame sd s t)

/-- R72: with N ≤ 32 and room, the bits ARG0[N−1] … ARG0[0] follow the old ones. -/
def Obligations.BsAppendBitsAppendsMsbFirst : Prop :=
  ∀ (s : State) (sd : BufIdx) (n : Nat), n ≤ 32 → s.len sd + n ≤ 32768 →
    ∃ t, exec (.bsAppendBits sd n) s = .next t ∧ t.len sd = s.len sd + n ∧
      (∀ k < s.len sd, (t.buf sd)[k]? = (s.buf sd)[k]?) ∧
      (∀ j < n, (t.buf sd)[s.len sd + j]? = some (s.latch.arg0.getLsbD (n - 1 - j))) ∧ BufferFrame sd s t

/-- R73: with room, ARG0 copies of B follow the old bits. -/
def Obligations.BsAppendBoolsAppendsCopies : Prop :=
  ∀ (s : State) (sd : BufIdx) (b : Bool), s.len sd + s.latch.arg0.toNat ≤ 32768 →
    ∃ t, exec (.bsAppendBools sd b) s = .next t ∧ t.len sd = s.len sd + s.latch.arg0.toNat ∧
      (∀ k < s.len sd, (t.buf sd)[k]? = (s.buf sd)[k]?) ∧
      (∀ j < s.latch.arg0.toNat, (t.buf sd)[s.len sd + j]? = some b) ∧ BufferFrame sd s t

/-- R68, R74: with room, BS[SS] as it stood follows BS[SD]; SD = SS doubles the buffer. -/
def Obligations.BsAppendConcatenates : Prop :=
  ∀ (s : State) (sd ss : BufIdx), s.len sd + s.len ss ≤ 32768 →
    ∃ t, exec (.bsAppend sd ss) s = .next t ∧ t.buf sd = s.buf sd ++ s.buf ss ∧ BufferFrame sd s t

/-- R68, R75: with lo ≤ hi ≤ LEN[SS], BS[SD] becomes the bits lo .. hi − 1 of BS[SS] as it stood, SD = SS included. -/
def Obligations.BsSubstrTakesSlice : Prop :=
  ∀ (s : State) (sd ss : BufIdx), s.latch.arg0.toNat ≤ s.latch.arg1.toNat → s.latch.arg1.toNat ≤ s.len ss →
    ∃ t, exec (.bsSubstr sd ss) s = .next t ∧ t.len sd = s.latch.arg1.toNat - s.latch.arg0.toNat ∧
      (∀ k < s.latch.arg1.toNat - s.latch.arg0.toNat, (t.buf sd)[k]? = (s.buf ss)[s.latch.arg0.toNat + k]?) ∧
      BufferFrame sd s t

/-- R76: with byte i wholly inside, bit 8i + j of BS[SS] goes to RESULT[7 − j], and RESULT[31:8] is 0. -/
def Obligations.BsByteAtReadsByte : Prop :=
  ∀ (s : State) (ss : BufIdx), 8 * s.latch.arg0.toNat + 8 ≤ s.len ss →
    ∃ t, exec (.bsByteAt ss) s = .next t ∧
      (∀ j < 8, (s.buf ss)[8 * s.latch.arg0.toNat + j]? = some (t.result.getLsbD (7 - j))) ∧
      t.result.toNat < 256 ∧ ResultFrame s t

/-- R72 to R76, R133, R134: where the bitstream commands end with an error, and with which. -/
def Obligations.BitstreamErrors : Prop :=
  ∀ (s : State) (sd ss : BufIdx) (n : Nat) (b : Bool),
    (32 < n → EndsWith .operand (.bsAppendBits sd n) s) ∧
    (n ≤ 32 → 32768 < s.len sd + n → EndsWith .overflow (.bsAppendBits sd n) s) ∧
    (32768 < s.len sd + s.latch.arg0.toNat → EndsWith .overflow (.bsAppendBools sd b) s) ∧
    (32768 < s.len sd + s.len ss → EndsWith .overflow (.bsAppend sd ss) s) ∧
    (s.latch.arg1.toNat < s.latch.arg0.toNat ∨ s.len ss < s.latch.arg1.toNat →
      EndsWith .bounds (.bsSubstr sd ss) s) ∧
    (s.len ss < 8 * s.latch.arg0.toNat + 8 → EndsWith .bounds (.bsByteAt ss) s)

/-! ## Field arithmetic and Reed-Solomon -/

/-- R80: the product is the table law's, and the field laws hold of it. -/
def Obligations.FieldLaws : Prop :=
  ∀ a b c : Byte, gfMul a b = (if a = 0 ∨ b = 0 then 0 else gfExp (gfLog a + gfLog b)) ∧ gfMul a b = gfMul b a ∧ gfMul (gfMul a b) c = gfMul a (gfMul b c) ∧
    gfMul a (b ^^^ c) = gfMul a b ^^^ gfMul a c ∧ gfMul 1 b = b ∧
    (a ≠ 0 → gfMul a (gfExp (255 - gfLog a)) = 1 ∧ gfExp (gfLog a) = a ∧ gfLog a ≤ 254)

/-- R84: for byte operands GF_MUL leaves the product, by R80's table law, in RESULT. -/
def Obligations.GfMulLeavesProduct : Prop :=
  ∀ (s : State) (a b : Byte), s.latch.arg0.toNat = a.toNat → s.latch.arg1.toNat = b.toNat →
    ∃ t, exec .gfMul s = .next t ∧
      t.result.toNat = (if a = 0 ∨ b = 0 then (0 : Byte) else gfExp (gfLog a + gfLog b)).toNat ∧ ResultFrame s t

/-- R78, R79, R85, R86: GF_EXP leaves EXP[i], never 0; GF_LOG leaves the index below 255 whose entry is a. EXP starts at
1, each entry is 2 times the one before reduced by 0x11D, and repeats after 255; no two of the first 255 are equal. -/
def Obligations.GfExpAndGfLogLeaveEntries : Prop :=
  (∀ s : State, s.latch.arg0.toNat ≤ 511 →
    ∃ t, exec .gfExp s = .next t ∧ t.result.toNat = (gfExp s.latch.arg0.toNat).toNat ∧ t.result ≠ 0 ∧
      ResultFrame s t) ∧
  (∀ s : State, 1 ≤ s.latch.arg0.toNat → s.latch.arg0.toNat ≤ 255 →
    ∃ t, exec .gfLog s = .next t ∧ t.result.toNat ≤ 254 ∧
      (gfExp t.result.toNat).toNat = s.latch.arg0.toNat ∧ ResultFrame s t) ∧
  gfExp 0 = 1 ∧
  (∀ i < 254, (gfExp (i + 1)).toNat =
    if 256 ≤ 2 * (gfExp i).toNat then (2 * (gfExp i).toNat) ^^^ 0x11D else 2 * (gfExp i).toNat) ∧
  (∀ i, 255 ≤ i → i ≤ 511 → gfExp i = gfExp (i - 255)) ∧
  (∀ i < 255, ∀ j < 255, gfExp i = gfExp j → i = j)

/-- R84 to R88, R133, R134: where the field and RS commands end with an error, with which, and in which order. -/
def Obligations.FieldAndRsErrors : Prop :=
  ∀ (s : State) (sd ss : BufIdx),
    (255 < s.latch.arg0.toNat ∨ 255 < s.latch.arg1.toNat → EndsWith .operand .gfMul s) ∧
    (511 < s.latch.arg0.toNat → EndsWith .operand .gfExp s) ∧
    (s.latch.arg0 = 0 ∨ 255 < s.latch.arg0.toNat → EndsWith .operand .gfLog s) ∧
    (255 < s.latch.arg0.toNat → EndsWith .operand (.rsGenpoly sd) s) ∧
    (s.latch.arg0.toNat ≤ 255 → 32768 < s.len sd + 8 * (s.latch.arg0.toNat + 1) →
      EndsWith .overflow (.rsGenpoly sd) s) ∧
    (255 < s.latch.arg1.toNat + s.latch.arg2.toNat → EndsWith .rsLength (.rsEncode sd ss) s) ∧
    (s.latch.arg1.toNat + s.latch.arg2.toNat ≤ 255 →
      s.len ss < 8 * (s.latch.arg0.toNat + s.latch.arg1.toNat) → EndsWith .bounds (.rsEncode sd ss) s) ∧
    (s.latch.arg1.toNat + s.latch.arg2.toNat ≤ 255 →
      8 * (s.latch.arg0.toNat + s.latch.arg1.toNat) ≤ s.len ss → 32768 < s.len sd + 8 * s.latch.arg2.toNat →
      EndsWith .overflow (.rsEncode sd ss) s)

/-- R81, R87: RS_GENPOLY appends t + 1 coefficients of a polynomial that is monic and has the roots α^0 .. α^(t−1), each
as 8 bits MSB-first. -/
def Obligations.RsGenpolyAppendsMonicWithRoots : Prop :=
  ∀ (s : State) (sd : BufIdx), s.latch.arg0.toNat ≤ 255 → s.len sd + 8 * (s.latch.arg0.toNat + 1) ≤ 32768 →
    ∃ (t : State) (g : List Byte), exec (.rsGenpoly sd) s = .next t ∧ t.buf sd = s.buf sd ++ bytesBits g ∧
      g.length = s.latch.arg0.toNat + 1 ∧ g[0]? = some 1 ∧ (∀ i < s.latch.arg0.toNat, polyEval g (gfExp i) = 0) ∧
      BufferFrame sd s t

/-- R82, R88: RS_ENCODE appends t parity codewords p to BS[SD], MSB-first, such that the codeword d ‖ p is 0 at
α^0 .. α^(t−1), d being the k codewords that bits 8·lo .. 8·(lo + k) − 1 of BS[SS] make as it stood; SD = SS included. -/
def Obligations.RsEncodeMakesCodeword : Prop :=
  ∀ (s : State) (sd ss : BufIdx), s.latch.arg1.toNat + s.latch.arg2.toNat ≤ 255 →
    8 * (s.latch.arg0.toNat + s.latch.arg1.toNat) ≤ s.len ss → s.len sd + 8 * s.latch.arg2.toNat ≤ 32768 →
    ∃ (t : State) (d p : List Byte), exec (.rsEncode sd ss) s = .next t ∧ d.length = s.latch.arg1.toNat ∧
      BytesAt (s.buf ss) (8 * s.latch.arg0.toNat) d ∧ p.length = s.latch.arg2.toNat ∧
      t.buf sd = s.buf sd ++ bytesBits p ∧ BytesAt (t.buf sd) (s.len sd) p ∧
      (∀ i < s.latch.arg2.toNat, polyEval (d ++ p) (gfExp i) = 0) ∧ BufferFrame sd s t

/-! ## Symbol commands -/

/-- R97: SYM_INIT with V in 1 .. 40 and a level index up to 3, in every phase: all grids light, the symbol and penalty
registers as the rule says, PHASE INIT. -/
def Obligations.SymInitAllocates : Prop :=
  ∀ s : State, 1 ≤ s.latch.arg0.toNat → s.latch.arg0.toNat ≤ 40 → s.latch.arg1.toNat ≤ 3 →
    ∃ t, exec .symInit s = .next t ∧ t.phase = .init ∧ t.versionNat = s.latch.arg0.toNat ∧
      t.sym.level.index.toNat = s.latch.arg1.toNat ∧ t.sym.mask = 0 ∧
      t.sym.inner.toNat = 17 + 4 * s.latch.arg0.toNat ∧ t.sym.size.toNat = 25 + 4 * s.latch.arg0.toNat ∧
      t.sym.free.toNat = (17 + 4 * s.latch.arg0.toNat) * (17 + 4 * s.latch.arg0.toNat) ∧
      t.sym.fpTL = ⟨4, 4⟩ ∧ t.sym.fpTR.x.toNat = 14 + 4 * s.latch.arg0.toNat ∧ t.sym.fpTR.y = 4 ∧
      t.sym.fpBL.x = 4 ∧ t.sym.fpBL.y.toNat = 14 + 4 * s.latch.arg0.toNat ∧
      t.sym.fmtWord = 0 ∧ t.sym.verWord = 0 ∧ t.pen.total = 0 ∧ t.pen.n1 = 0 ∧ t.pen.n2 = 0 ∧ t.pen.n3 = 0 ∧
      t.pen.n4 = 0 ∧ t.pen.dark = 0 ∧ (∀ m : MaskIdx, t.pen.perMask[m] = 0) ∧
      (∀ (g : GridName) (X Y : Nat), (t.grids.get g).read X Y = false) ∧ SymbolFrame s t

/-- R90 to R94: SYM_FUNCTION on an empty symbol paints the finders, separators, timing, alignment patterns and the dark
module, reserves the format and version modules light, and leaves every other module light. -/
def Obligations.SymFunctionPaintsPatterns : Prop :=
  ∀ s : State, s.phase = .init → s.grids = Grids.zero → 1 ≤ s.versionNat → s.versionNat ≤ 40 →
    ∃ t, exec .symFunction s = .next t ∧ t.phase = .func ∧
      (∀ f ∈ [(0, 0), (s.side - 7, 0), (0, s.side - 7)], ∀ dx < 7, ∀ dy < 7,
        t.grids.module.readInner (f.1 + dx) (f.2 + dy) =
          decide (max ((dx : Int) - 3).natAbs ((dy : Int) - 3).natAbs ≠ 2)) ∧
      (∀ x y, InFinderArea s.side x y → ¬ InFinder s.side x y → t.grids.module.readInner x y = false) ∧
      (∀ i, 8 ≤ i → i ≤ s.side - 9 →
        t.grids.module.readInner i 6 = decide (i % 2 = 0) ∧ t.grids.module.readInner 6 i = decide (i % 2 = 0)) ∧
      (∀ cx cy, AlignmentCentre s.versionNat cx cy → ∀ dx < 5, ∀ dy < 5,
        t.grids.module.readInner (cx - 2 + dx) (cy - 2 + dy) =
          decide (max ((dx : Int) - 2).natAbs ((dy : Int) - 2).natAbs ≠ 1)) ∧
      t.grids.module.readInner 8 (4 * s.versionNat + 9) = true ∧
      (∀ x y, InFormat s.side x y ∨ InVersion s.versionNat x y → t.grids.module.readInner x y = false) ∧
      (∀ x y, ¬ FunctionModule s.versionNat x y → t.grids.module.readInner x y = false) ∧
      t.grids.out = s.grids.out ∧ t.pen = s.pen ∧ t.sym = { s.sym with free := t.sym.free } ∧ SymbolFrame s t

/-- R26, R89, R95: after SYM_FUNCTION on an empty symbol, FUNC and USED are 1 at exactly the function modules, FINDER at
exactly the finder modules, LASTALIGN at exactly the 25 modules of the pattern at (s − 7, s − 7) for V ≥ 2; the quiet
zone is light in every grid; SYM_FREE counts the rest. -/
def Obligations.SymFunctionMarksFunctionModules : Prop :=
  ∀ s : State, s.phase = .init → s.grids = Grids.zero → 1 ≤ s.versionNat → s.versionNat ≤ 40 →
    ∃ t, exec .symFunction s = .next t ∧
      (∀ x y, x < s.side → y < s.side →
        (t.grids.func.readInner x y = true ↔ FunctionModule s.versionNat x y) ∧
        t.grids.used.readInner x y = t.grids.func.readInner x y ∧
        (t.grids.finder.readInner x y = true ↔ InFinder s.side x y) ∧
        (t.grids.lastAlign.readInner x y = true ↔
          2 ≤ s.versionNat ∧ InSquare x y (s.side - 9) (s.side - 9) 5)) ∧
      (∀ g : GridName, QuietLight (t.grids.get g) s.side) ∧
      t.sym.free.toNat + t.grids.used.countInner s.side true = s.side * s.side

/-- R96: SYM_FREE after SYM_FUNCTION on an empty symbol, for each of the forty versions. -/
def Obligations.SymFunctionFreeCounts : Prop :=
  ∀ s : State, s.phase = .init → s.grids = Grids.zero → 1 ≤ s.versionNat → s.versionNat ≤ 40 →
    ∃ t, exec .symFunction s = .next t ∧ freeTable[s.versionNat - 1]? = some t.sym.free.toNat

/-- R99: the placement order visits every inner position outside column 6 exactly once and no other. It is (s − 1)/2
column pairs from right to left, column 6 skipped, going up and down in turn, the first up; within a pair, each row gives
the right column, then the left. -/
def Obligations.ZigzagVisitsEachPositionOnce : Prop :=
  ∀ version : Nat, 1 ≤ version →
    (zigzag (innerSide version)).Nodup ∧
    (∀ x y, (x, y) ∈ zigzag (innerSide version) ↔ x < innerSide version ∧ y < innerSide version ∧ x ≠ 6) ∧
    (zigzag (innerSide version)).length = (innerSide version - 1) / 2 * (2 * innerSide version) ∧
    (∀ p < (innerSide version - 1) / 2, ∀ r < innerSide version,
      (zigzag (innerSide version))[2 * innerSide version * p + 2 * r]? =
        some (pairColumn (innerSide version) p, pairRow (innerSide version) p r) ∧
      (zigzag (innerSide version))[2 * innerSide version * p + 2 * r + 1]? =
        some (pairColumn (innerSide version) p - 1, pairRow (innerSide version) p r))

/-- R100: in phase FUNC with one bit per free module, bit k of the stream goes to the k-th position of the placement
order with USED = 0, which becomes used; every other module of MODULE and USED stays; SYM_FREE is 0. -/
def Obligations.SymPlaceFillsFreeModules : Prop :=
  ∀ (s : State) (ss : BufIdx), s.phase = .func → s.len ss = s.sym.free.toNat → 1 ≤ s.versionNat →
    s.versionNat ≤ 40 →
    ∃ t, exec (.symPlace ss) s = .next t ∧ t.phase = .placed ∧ t.sym = { s.sym with free := 0 } ∧ t.pen = s.pen ∧
      (∀ k x y, ((zigzag s.side).filter fun p => !s.grids.used.readInner p.1 p.2)[k]? = some (x, y) →
        k < s.len ss → (s.buf ss)[k]? = some (t.grids.module.readInner x y) ∧ t.grids.used.readInner x y = true) ∧
      (∀ X Y, (∀ k < s.len ss, ∀ x y,
          ((zigzag s.side).filter fun p => !s.grids.used.readInner p.1 p.2)[k]? = some (x, y) →
          (X, Y) ≠ (x + 4, y + 4)) →
        t.grids.module.read X Y = s.grids.module.read X Y ∧ t.grids.used.read X Y = s.grids.used.read X Y) ∧
      t.grids.func = s.grids.func ∧ t.grids.out = s.grids.out ∧ t.grids.finder = s.grids.finder ∧
      t.grids.lastAlign = s.grids.lastAlign ∧ SymbolFrame s t

/-- R97, R98, R100, R114 to R116, R118, R133, R134: where the symbol commands end with an error, and with which. -/
def Obligations.SymbolErrors : Prop :=
  ∀ (s : State) (ss : BufIdx) (m : MaskIdx),
    (s.latch.arg0.toNat < 1 ∨ 40 < s.latch.arg0.toNat ∨ 3 < s.latch.arg1.toNat → EndsWith .operand .symInit s) ∧
    (s.phase ≠ .init → EndsWith .sequence .symFunction s) ∧
    (s.phase ≠ .func → EndsWith .sequence (.symPlace ss) s) ∧
    (s.phase = .func → s.len ss ≠ s.sym.free.toNat → EndsWith .placeLength (.symPlace ss) s) ∧
    (s.phase ∈ [Phase.empty, .init, .func] → EndsWith .sequence (.symApplyMask m) s ∧
      EndsWith .sequence .symSelectMask s) ∧
    (s.phase ∈ [Phase.empty, .init, .func, .placed] → EndsWith .sequence .symScore s)

/-- R27: the only phase changes a command makes. -/
def Obligations.PhaseTransitions : Prop :=
  ∀ (i : Instr) (s t : State), exec i s = .next t → t.phase ≠ s.phase →
    (i = .symInit ∧ t.phase = .init) ∨ (i = .symFunction ∧ s.phase = .init ∧ t.phase = .func) ∨
      ((∃ ss, i = .symPlace ss) ∧ s.phase = .func ∧ t.phase = .placed) ∨
      ((∃ m, i = .symApplyMask m) ∧ s.phase ∈ [Phase.placed, .masked, .final] ∧ t.phase = .masked) ∨
      (i = .symSelectMask ∧ s.phase ∈ [Phase.placed, .masked, .final] ∧ t.phase = .final)

/-! ## Mask commands -/

/-- R101, R113, R114: SYM_APPLY_MASK builds OUT from MODULE: data modules inverted where the mask's predicate holds, the format and version bits at their
positions, the quiet zone light; MODULE, FUNC, USED, the overlays and the penalty registers stay. -/
def Obligations.SymApplyMaskBuildsOut : Prop :=
  ∀ (s : State) (m : MaskIdx), s.phase ∈ [Phase.placed, .masked, .final] → 1 ≤ s.versionNat → s.versionNat ≤ 40 →
    ∃ t, exec (.symApplyMask m) s = .next t ∧ t.phase = .masked ∧
      t.sym = { s.sym with mask := BitVec.ofNat 3 m.val, fmtWord := formatWord s.sym.level m, verWord := t.sym.verWord } ∧
      t.sym.verWord = (if 7 ≤ s.versionNat then versionWord s.versionNat else 0) ∧
      t.pen = s.pen ∧ t.grids = { s.grids with out := t.grids.out } ∧
      (∀ x y, x < s.side → y < s.side → ¬ InFormat s.side x y → ¬ InVersion s.versionNat x y →
        t.grids.out.readInner x y =
          (s.grids.module.readInner x y ^^ (!s.grids.func.readInner x y && decide (MaskInverts m.val x y)))) ∧
      (∀ i < 15, ∀ p ∈ formatCells s.side i,
        t.grids.out.readInner p.1 p.2 = (formatWord s.sym.level m).getLsbD i) ∧
      (7 ≤ s.versionNat → ∀ i < 18, ∀ p ∈ versionCells s.side i,
        t.grids.out.readInner p.1 p.2 = (versionWord s.versionNat).getLsbD i) ∧
      QuietLight t.grids.out s.side ∧ SymbolFrame s t

/-- R102, R104: after SYM_APPLY_MASK, FMT_WORD holds the level code and the mask and, unmasked by 0x5412, is a multiple of
0x537; for V ≥ 7 VER_WORD holds V and is a multiple of 0x1F25, and below it is 0. -/
def Obligations.FormatAndVersionWordsAreCodewords : Prop :=
  ∀ (s : State) (m : MaskIdx), s.phase ∈ [Phase.placed, .masked, .final] →
    ∃ t, exec (.symApplyMask m) s = .next t ∧
      (t.sym.fmtWord.toNat ^^^ 0x5412) / 1024 =
        (match s.sym.level with | .l => 1 | .m => 0 | .q => 3 | .h => 2) * 8 + m.val ∧
      (∃ q, carrylessMul q 0x537 = t.sym.fmtWord.toNat ^^^ 0x5412) ∧
      (7 ≤ s.versionNat → t.sym.verWord.toNat / 4096 = s.versionNat ∧
        ∃ q, carrylessMul q 0x1F25 = t.sym.verWord.toNat) ∧
      (s.versionNat < 7 → t.sym.verWord = 0)

/-- R107: PEN_N1 adds 3 + (k − 5) for every maximal run of k ≥ 5 modules of one colour in every row and column. -/
def Obligations.ScoreCountsRuns : Prop :=
  ∀ s : State, s.phase ∈ [Phase.masked, .final] →
    ∃ t, exec .symScore s = .next t ∧ t.pen.n1 = BitVec.ofNat 32 (sumOverLines s.grids.out s.side runPoints)

/-- R108, R110: PEN_N2 adds 3 for every 2 × 2 block of one colour, overlapping blocks separately; PEN_DARK is the number D
of dark inner modules and PEN_N4 is 10·⌊|100·D − 50·T| / (5·T)⌋, T = s². -/
def Obligations.ScoreCountsBlocksAndBalance : Prop :=
  ∀ s : State, s.phase ∈ [Phase.masked, .final] →
    ∃ t, exec .symScore s = .next t ∧ t.pen.n2 = BitVec.ofNat 32 (blockPoints s.grids.out s.side) ∧
      t.pen.n4 = BitVec.ofNat 32 (balancePoints s.grids.out s.side) ∧
      t.pen.dark = BitVec.ofNat 32 (darkModules s.grids.out s.side)

/-- R109: PEN_N3 adds 40 for every start index of every row and column at which either pattern stands. -/
def Obligations.ScoreCountsPatterns : Prop :=
  ∀ s : State, s.phase ∈ [Phase.masked, .final] →
    ∃ t, exec .symScore s = .next t ∧ t.pen.n3 = BitVec.ofNat 32 (sumOverLines s.grids.out s.side patternPoints)

/-- R38, R111, R112, R115: SYM_SCORE writes only the six penalty registers; PEN_TOTAL is the sum of the four parts with
no wrap-around, below 2 600 000. -/
def Obligations.SymScoreTotalDoesNotWrap : Prop :=
  ∀ s : State, s.phase ∈ [Phase.masked, .final] → 1 ≤ s.versionNat → s.versionNat ≤ 40 →
    ∃ t, exec .symScore s = .next t ∧
      t.pen.total.toNat = t.pen.n1.toNat + t.pen.n2.toNat + t.pen.n3.toNat + t.pen.n4.toNat ∧
      t.pen.total.toNat < 2600000 ∧ t.pen.perMask = s.pen.perMask ∧ t.phase = s.phase ∧ t.sym = s.sym ∧
      t.grids = s.grids ∧ SymbolFrame s t

/-- R116: SYM_SELECT_MASK chooses the least mask index with the least penalty, and records all eight penalties. -/
def Obligations.SymSelectMaskChoosesLeast : Prop :=
  ∀ s : State, s.phase ∈ [Phase.placed, .masked, .final] →
    ∃ (t : State) (best : MaskIdx), exec .symSelectMask s = .next t ∧ t.phase = .final ∧
      t.sym.mask = BitVec.ofNat 3 best.val ∧
      (∀ m, (scoreGrid (s.build best) s.side).total ≤ (scoreGrid (s.build m) s.side).total) ∧
      (∀ m, m < best → (scoreGrid (s.build best) s.side).total < (scoreGrid (s.build m) s.side).total) ∧
      (∀ m : MaskIdx, t.pen.perMask[m] = BitVec.ofNat 32 (scoreGrid (s.build m) s.side).total) ∧
      t.grids = { s.grids with out := t.grids.out } ∧ SymbolFrame s t

/-- R116: the end state of SYM_SELECT_MASK is that of SYM_APPLY_MASK of the chosen mask followed by SYM_SCORE, except for
PHASE and PEN_MASK0 to 7; and PEN_MASKm is the total that SYM_APPLY_MASK of m followed by SYM_SCORE leaves. -/
def Obligations.SelectEqualsApplyThenScore : Prop :=
  ∀ s : State, s.phase ∈ [Phase.placed, .masked, .final] →
    ∃ (t : State) (best : MaskIdx), exec .symSelectMask s = .next t ∧ t.sym.mask = BitVec.ofNat 3 best.val ∧
      (∃ u v, exec (.symApplyMask best) s = .next u ∧ exec .symScore u = .next v ∧
        t = { v with phase := .final, pen := { v.pen with perMask := t.pen.perMask } }) ∧
      (∀ m : MaskIdx, ∃ u v, exec (.symApplyMask m) s = .next u ∧ exec .symScore u = .next v ∧
        v.pen.total = t.pen.perMask[m])

/-- R114, R116: a mask applied after another replaces OUT wholly, and repeating SYM_SELECT_MASK gives the same state. -/
def Obligations.MasksStartFromModule : Prop :=
  ∀ (s : State) (m₁ m₂ : MaskIdx), s.phase ∈ [Phase.placed, .masked, .final] →
    (∃ t u, exec (.symApplyMask m₁) s = .next t ∧ exec (.symApplyMask m₂) t = .next u ∧
      exec (.symApplyMask m₂) s = .next u) ∧
    (∃ t, exec .symSelectMask s = .next t ∧ exec .symSelectMask t = .next t)

/-! ## Host accesses -/

/-- R21, R137: a CMD write is accepted exactly when BUSY = 0 and ERR = 0: CMD and the latch are written, BUSY is set,
nothing else of the block changes; otherwise only DROP is set. -/
def Obligations.CommandAcceptance : Prop :=
  ∀ (s : State) (w : Word) (rest : List BusOp), HostTurn s (.write 0x018 .w32 w) rest →
    (s.busy = false → s.err = false →
      ∃ e : Env, step s = .next
        { s with busy := true, cmd := w, latch := ⟨w, s.arg0, s.arg1, s.arg2⟩, env := e } ∧
        e.inbox = rest ∧ e.reads = s.env.reads ∧ e.draws = s.env.draws) ∧
    (s.busy = true ∨ s.err = true →
      step s = .next { s with drop := true, env := s.env.taken rest })

/-- R17, R138: a STATUS write clears DONE, ERR and DROP exactly where bits 1, 2 and 3 are 1, and changes nothing else of
the block. -/
def Obligations.StatusWriteClears : Prop :=
  ∀ (s : State) (v : Word) (rest : List BusOp), HostTurn s (.write 0x008 .w32 v) rest →
    step s = .next
      { s with
        done := if v.getLsbD 1 then false else s.done, err := if v.getLsbD 2 then false else s.err,
        drop := if v.getLsbD 3 then false else s.drop, env := s.env.taken rest }

/-- R16, R147 to R149: a CTRL write with bit 0 = 1, and a pulse of the reset input, put the block into its reset state in
that step, whatever the state; a CTRL write with bit 0 = 0 does nothing. In the reset state ID reads its constant,
SYM_BORDER 4 and every other register 0; window words read any value; IRQ is 0. That the grids and the idle latch are
zeros there is the model's choice (log 4, log 5). -/
def Obligations.ResetInAnyState : Prop :=
  (∀ (s : State) (v : Word) (rest : List BusOp), HostTurn s (.write 0x004 .w32 v) rest →
    step s = .next
      (if v.getLsbD 0 then { State.reset with env := s.env.taken rest } else { s with env := s.env.taken rest })) ∧
  (∀ (s : State) (rest : List BusOp), HostTurn s .hwReset rest →
    step s = .next { State.reset with env := s.env.taken rest }) ∧
  (∀ off ∈ registerOffsets, State.reset.readValue (BitVec.ofNat 16 off) =
    some (if off = 0x000 then 0x51525342 else if off = 0x054 then 4 else 0)) ∧
  (∀ off : BitVec 16, 0x2000 ≤ off.toNat → off.toNat < 0xE000 → State.reset.readValue off = none) ∧
  State.reset.irq = false

/-- R18, R22, R51: a write to INT_EN or to an ARG register changes only that register, even while BUSY = 1; of INT_EN
only bits 1, 2 and 3 are kept. -/
def Obligations.ArgAndIntEnWrites : Prop :=
  ∀ (s : State) (v : Word) (rest : List BusOp),
    (HostTurn s (.write 0x01C .w32 v) rest → step s = .next { s with arg0 := v, env := s.env.taken rest }) ∧
    (HostTurn s (.write 0x020 .w32 v) rest → step s = .next { s with arg1 := v, env := s.env.taken rest }) ∧
    (HostTurn s (.write 0x024 .w32 v) rest → step s = .next { s with arg2 := v, env := s.env.taken rest }) ∧
    (HostTurn s (.write 0x00C .w32 v) rest → ∃ e : IntEn,
      step s = .next { s with intEn := e, env := s.env.taken rest } ∧ e.word = v &&& 0xE)

/-- R48, R51: a write to any other aligned offset (read-only registers, windows, reserved offsets) is ignored. -/
def Obligations.OtherWritesIgnored : Prop :=
  ∀ (s : State) (off : BitVec 16) (v : Word) (rest : List BusOp), off.toNat % 4 = 0 →
    off.toNat ∉ writableOffsets → HostTurn s (.write off .w32 v) rest →
    step s = .next { s with env := s.env.taken rest }

/-- R48, R51: an aligned 32-bit read at any offset changes nothing of the block, whatever the state, and answers one
word; at a reserved offset that word is 0, also while BUSY = 1. -/
def Obligations.ReadsHaveNoSideEffects : Prop :=
  ∀ (s : State) (off : BitVec 16) (rest : List BusOp), off.toNat % 4 = 0 → HostTurn s (.read off .w32) rest →
    (∃ (v : Word) (n : Nat), step s = .next { s with env := { s.env.answered rest off v with draws := n } }) ∧
    (ReservedOffset off → step s = .next { s with env := s.env.answered rest off 0 })

/-- R17: STATUS as read in every state: BUSY, DONE, ERR, DROP, PHASE at their bits, the rest 0. -/
def Obligations.StatusReadLayout : Prop :=
  ∀ (s : State) (rest : List BusOp), HostTurn s (.read 0x008 .w32) rest →
    ∃ v : Word, step s = .next { s with env := s.env.answered rest 0x008 v } ∧
      v.getLsbD 0 = s.busy ∧ v.getLsbD 1 = s.done ∧ v.getLsbD 2 = s.err ∧ v.getLsbD 3 = s.drop ∧
      v.toNat / 16 = (match s.phase with
        | .empty => 0 | .init => 1 | .func => 2 | .placed => 3 | .masked => 4 | .final => 5)

/-- R49: with no command in flight and a symbol allocated, bit b of word w of row Y of a window is module (32·w + b, Y)
of its grid, and 0 past the 185 columns and rows. -/
def Obligations.WindowReadsGrid : Prop :=
  ∀ (s : State) (wg : Nat × Grid) (Y w : Nat) (rest : List BusOp), wg ∈ windowBases s.grids → Y < 256 → w < 8 →
    s.busy = false → s.phase ≠ .empty →
    HostTurn s (.read (BitVec.ofNat 16 (wg.1 + 32 * Y + 4 * w)) .w32) rest →
    ∃ v : Word, step s = .next
        { s with env := s.env.answered rest (BitVec.ofNat 16 (wg.1 + 32 * Y + 4 * w)) v } ∧
      ∀ b < 32, v.getLsbD b =
        (if 32 * w + b < 185 ∧ Y < 185 then wg.2.read (32 * w + b) Y else false)

/-- R52: while BUSY = 1 the reads of ID, CTRL, STATUS, INT_EN, CMD and ARG0 to ARG2 answer what registerReads says of
them; every other register and every window word reads the next free value (log 1), whatever it is. -/
def Obligations.ReadsWhileBusy : Prop :=
  ∀ (s : State) (off : BitVec 16) (rest : List BusOp), off.toNat % 4 = 0 → s.busy = true →
    HostTurn s (.read off .w32) rest →
    (∀ n, off.toNat ∈ exactOffsets → (off.toNat, n) ∈ registerReads s →
      ∃ v : Word, step s = .next { s with env := s.env.answered rest off v } ∧ v.toNat = n) ∧
    (¬ ReservedOffset off → off.toNat ∉ exactOffsets →
      step s = .next
        { s with env := { s.env.answered rest off (Config.freeRead s.env.draws) with draws := s.env.draws + 1 } })

/-- R15 to R39, R52: with no command in flight every register of R14 answers what registerReads says of it, its fields at
the bit positions of its rule and 0 in every other bit. For a BS_LEN register the buffer is within BS_CAP, the invariant of
StepKeepsCapacity. -/
def Obligations.ResultRegistersRead : Prop :=
  ∀ (s : State) (off : BitVec 16) (n : Nat) (rest : List BusOp), s.busy = false → (off.toNat, n) ∈ registerReads s →
    (off.toNat ∈ [0x030, 0x034, 0x038, 0x03C] → n ≤ 32768) → HostTurn s (.read off .w32) rest →
    ∃ v : Word, step s = .next { s with env := s.env.answered rest off v } ∧ v.toNat = n

/-- R138, R140: the interrupt output is 1 exactly while a STATUS bit 1, 2 or 3 is 1 whose INT_EN bit is 1; a STATUS write
that clears all three, and an INT_EN write of 0, lower it. -/
def Obligations.InterruptIsALevel : Prop :=
  (∀ s : State, s.irq = true ↔ ∃ j ∈ [1, 2, 3], s.statusWord.getLsbD j = true ∧ s.intEn.word.getLsbD j = true) ∧
  (∀ (s : State) (rest : List BusOp), HostTurn s (.write 0x008 .w32 0x0000000E) rest →
    ∃ t, step s = .next t ∧ t.irq = false) ∧
  (∀ (s : State) (rest : List BusOp), HostTurn s (.write 0x00C .w32 0x00000000) rest →
    ∃ t, step s = .next t ∧ t.irq = false ∧ t.err = s.err ∧ t.done = s.done ∧ t.drop = s.drop)

/-- R46: an access of 8, 16 or 64 bits, or at an offset that is no multiple of 4, is refused. -/
def Obligations.SubwordAndMisalignedRefused : Prop :=
  ∀ (s : State) (op : BusOp) (rest : List BusOp), op.defined = false → HostTurn s op rest →
    ∃ r, step s = .refused r

/-! ## Invariants and whole-machine rules -/

/-- R24, R69: every step keeps every buffer within BS_CAP. -/
def Obligations.StepKeepsCapacity : Prop :=
  ∀ s t : State, CapacityOK s → step s = .next t → CapacityOK t

/-- R42, R137: every step keeps engine and status in agreement. -/
def Obligations.StepKeepsEngine : Prop :=
  ∀ s t : State, EngineOK s → step s = .next t → EngineOK t

/-- R27 to R39, R23: every step keeps RESULT a byte and the symbol registers in agreement with phase and version. -/
def Obligations.StepKeepsRegisters : Prop :=
  ∀ s t : State, ResultIsByte s ∧ GeometryOK s ∧ MaskRegsOK s → step s = .next t →
    ResultIsByte t ∧ GeometryOK t ∧ MaskRegsOK t

/-- R26, R95, R100, R113: every step keeps the grids in agreement with the phase: cleared, painted, wholly used with the
function modules untouched, OUT the symbol of the mask register. -/
def Obligations.StepKeepsGrids : Prop :=
  ∀ s t : State, GeometryOK s → MaskRegsOK s → GridsOK s → step s = .next t → GridsOK t

/-- R149: the invariants hold right after reset. -/
def Obligations.ResetMeetsInvariants : Prop := BlockOK State.reset

/-- R93, R113: in every state that meets the invariants the dark module (8, 4·V + 9) is dark in MODULE from phase FUNC on,
and in OUT once a mask is applied. -/
def Obligations.DarkModuleAlwaysDark : Prop :=
  ∀ s : State, GeometryOK s → GridsOK s →
    (s.phase ∈ [Phase.func, .placed, .masked, .final] →
      s.grids.module.readInner 8 (4 * s.versionNat + 9) = true) ∧
    (s.phase ∈ [Phase.masked, .final] → s.grids.out.readInner 8 (4 * s.versionNat + 9) = true)

/-- R136, R139: while ERR stays 1 the error record ERRCODE and ERRCMD does not change, whatever the host does. -/
def Obligations.ErrorRecordIsKept : Prop :=
  ∀ s t : State, EngineOK s → s.err = true → step s = .next t → t.err = true →
    t.errCode = s.errCode ∧ t.errCmd = s.errCmd

/-- R149 (and log 4): in phase EMPTY no step reads the unspecified grids: from any grids it does the same, and what it
leaves differs at most in the grids it leaves untouched. -/
def Obligations.UnspecifiedGridsUnobservable : Prop :=
  ∀ (s t : State) (g : Grids), s.phase = .empty → step s = .next t →
    ∃ u, step { s with grids := g } = .next u ∧ (u = { t with grids := g } ∨ u = t)
end

