-- ==== Sys2Proof/Laws/State.lean ====
section
/-! SUPPORT. What each named update of State does to each field, one lemma per field per update, true by rfl. -/

namespace Sys2Proof.Machine

variable (s : State)

/-! ### State.setBuf -/

@[simp] theorem State.setBuf_busy (i : BufIdx) (b : Bits) : (s.setBuf i b).busy = s.busy := rfl
@[simp] theorem State.setBuf_done (i : BufIdx) (b : Bits) : (s.setBuf i b).done = s.done := rfl
@[simp] theorem State.setBuf_err (i : BufIdx) (b : Bits) : (s.setBuf i b).err = s.err := rfl
@[simp] theorem State.setBuf_drop (i : BufIdx) (b : Bits) : (s.setBuf i b).drop = s.drop := rfl
@[simp] theorem State.setBuf_phase (i : BufIdx) (b : Bits) : (s.setBuf i b).phase = s.phase := rfl
@[simp] theorem State.setBuf_intEn (i : BufIdx) (b : Bits) : (s.setBuf i b).intEn = s.intEn := rfl
@[simp] theorem State.setBuf_errCode (i : BufIdx) (b : Bits) : (s.setBuf i b).errCode = s.errCode := rfl
@[simp] theorem State.setBuf_errCmd (i : BufIdx) (b : Bits) : (s.setBuf i b).errCmd = s.errCmd := rfl
@[simp] theorem State.setBuf_cmd (i : BufIdx) (b : Bits) : (s.setBuf i b).cmd = s.cmd := rfl
@[simp] theorem State.setBuf_arg0 (i : BufIdx) (b : Bits) : (s.setBuf i b).arg0 = s.arg0 := rfl
@[simp] theorem State.setBuf_arg1 (i : BufIdx) (b : Bits) : (s.setBuf i b).arg1 = s.arg1 := rfl
@[simp] theorem State.setBuf_arg2 (i : BufIdx) (b : Bits) : (s.setBuf i b).arg2 = s.arg2 := rfl
@[simp] theorem State.setBuf_result (i : BufIdx) (b : Bits) : (s.setBuf i b).result = s.result := rfl
@[simp] theorem State.setBuf_latch (i : BufIdx) (b : Bits) : (s.setBuf i b).latch = s.latch := rfl
@[simp] theorem State.setBuf_bufs (i : BufIdx) (b : Bits) : (s.setBuf i b).bufs = s.bufs.set i.val b i.isLt := rfl
@[simp] theorem State.setBuf_sym (i : BufIdx) (b : Bits) : (s.setBuf i b).sym = s.sym := rfl
@[simp] theorem State.setBuf_pen (i : BufIdx) (b : Bits) : (s.setBuf i b).pen = s.pen := rfl
@[simp] theorem State.setBuf_grids (i : BufIdx) (b : Bits) : (s.setBuf i b).grids = s.grids := rfl
@[simp] theorem State.setBuf_env (i : BufIdx) (b : Bits) : (s.setBuf i b).env = s.env := rfl

/-! ### State.appendBuf -/

@[simp] theorem State.appendBuf_busy (i : BufIdx) (b : Bits) : (s.appendBuf i b).busy = s.busy := rfl
@[simp] theorem State.appendBuf_done (i : BufIdx) (b : Bits) : (s.appendBuf i b).done = s.done := rfl
@[simp] theorem State.appendBuf_err (i : BufIdx) (b : Bits) : (s.appendBuf i b).err = s.err := rfl
@[simp] theorem State.appendBuf_drop (i : BufIdx) (b : Bits) : (s.appendBuf i b).drop = s.drop := rfl
@[simp] theorem State.appendBuf_phase (i : BufIdx) (b : Bits) : (s.appendBuf i b).phase = s.phase := rfl
@[simp] theorem State.appendBuf_intEn (i : BufIdx) (b : Bits) : (s.appendBuf i b).intEn = s.intEn := rfl
@[simp] theorem State.appendBuf_errCode (i : BufIdx) (b : Bits) : (s.appendBuf i b).errCode = s.errCode := rfl
@[simp] theorem State.appendBuf_errCmd (i : BufIdx) (b : Bits) : (s.appendBuf i b).errCmd = s.errCmd := rfl
@[simp] theorem State.appendBuf_cmd (i : BufIdx) (b : Bits) : (s.appendBuf i b).cmd = s.cmd := rfl
@[simp] theorem State.appendBuf_arg0 (i : BufIdx) (b : Bits) : (s.appendBuf i b).arg0 = s.arg0 := rfl
@[simp] theorem State.appendBuf_arg1 (i : BufIdx) (b : Bits) : (s.appendBuf i b).arg1 = s.arg1 := rfl
@[simp] theorem State.appendBuf_arg2 (i : BufIdx) (b : Bits) : (s.appendBuf i b).arg2 = s.arg2 := rfl
@[simp] theorem State.appendBuf_result (i : BufIdx) (b : Bits) : (s.appendBuf i b).result = s.result := rfl
@[simp] theorem State.appendBuf_latch (i : BufIdx) (b : Bits) : (s.appendBuf i b).latch = s.latch := rfl
@[simp] theorem State.appendBuf_bufs (i : BufIdx) (b : Bits) : (s.appendBuf i b).bufs = s.bufs.set i.val (s.buf i ++ b) i.isLt := rfl
@[simp] theorem State.appendBuf_sym (i : BufIdx) (b : Bits) : (s.appendBuf i b).sym = s.sym := rfl
@[simp] theorem State.appendBuf_pen (i : BufIdx) (b : Bits) : (s.appendBuf i b).pen = s.pen := rfl
@[simp] theorem State.appendBuf_grids (i : BufIdx) (b : Bits) : (s.appendBuf i b).grids = s.grids := rfl
@[simp] theorem State.appendBuf_env (i : BufIdx) (b : Bits) : (s.appendBuf i b).env = s.env := rfl

/-! ### State.setResult -/

@[simp] theorem State.setResult_busy (v : Word) : (s.setResult v).busy = s.busy := rfl
@[simp] theorem State.setResult_done (v : Word) : (s.setResult v).done = s.done := rfl
@[simp] theorem State.setResult_err (v : Word) : (s.setResult v).err = s.err := rfl
@[simp] theorem State.setResult_drop (v : Word) : (s.setResult v).drop = s.drop := rfl
@[simp] theorem State.setResult_phase (v : Word) : (s.setResult v).phase = s.phase := rfl
@[simp] theorem State.setResult_intEn (v : Word) : (s.setResult v).intEn = s.intEn := rfl
@[simp] theorem State.setResult_errCode (v : Word) : (s.setResult v).errCode = s.errCode := rfl
@[simp] theorem State.setResult_errCmd (v : Word) : (s.setResult v).errCmd = s.errCmd := rfl
@[simp] theorem State.setResult_cmd (v : Word) : (s.setResult v).cmd = s.cmd := rfl
@[simp] theorem State.setResult_arg0 (v : Word) : (s.setResult v).arg0 = s.arg0 := rfl
@[simp] theorem State.setResult_arg1 (v : Word) : (s.setResult v).arg1 = s.arg1 := rfl
@[simp] theorem State.setResult_arg2 (v : Word) : (s.setResult v).arg2 = s.arg2 := rfl
@[simp] theorem State.setResult_result (v : Word) : (s.setResult v).result = v := rfl
@[simp] theorem State.setResult_latch (v : Word) : (s.setResult v).latch = s.latch := rfl
@[simp] theorem State.setResult_bufs (v : Word) : (s.setResult v).bufs = s.bufs := rfl
@[simp] theorem State.setResult_sym (v : Word) : (s.setResult v).sym = s.sym := rfl
@[simp] theorem State.setResult_pen (v : Word) : (s.setResult v).pen = s.pen := rfl
@[simp] theorem State.setResult_grids (v : Word) : (s.setResult v).grids = s.grids := rfl
@[simp] theorem State.setResult_env (v : Word) : (s.setResult v).env = s.env := rfl

/-! ### State.complete -/

@[simp] theorem State.complete_busy : (s.complete).busy = false := rfl
@[simp] theorem State.complete_done : (s.complete).done = true := rfl
@[simp] theorem State.complete_err : (s.complete).err = s.err := rfl
@[simp] theorem State.complete_drop : (s.complete).drop = s.drop := rfl
@[simp] theorem State.complete_phase : (s.complete).phase = s.phase := rfl
@[simp] theorem State.complete_intEn : (s.complete).intEn = s.intEn := rfl
@[simp] theorem State.complete_errCode : (s.complete).errCode = s.errCode := rfl
@[simp] theorem State.complete_errCmd : (s.complete).errCmd = s.errCmd := rfl
@[simp] theorem State.complete_cmd : (s.complete).cmd = s.cmd := rfl
@[simp] theorem State.complete_arg0 : (s.complete).arg0 = s.arg0 := rfl
@[simp] theorem State.complete_arg1 : (s.complete).arg1 = s.arg1 := rfl
@[simp] theorem State.complete_arg2 : (s.complete).arg2 = s.arg2 := rfl
@[simp] theorem State.complete_result : (s.complete).result = s.result := rfl
@[simp] theorem State.complete_latch : (s.complete).latch = Latch.idle := rfl
@[simp] theorem State.complete_bufs : (s.complete).bufs = s.bufs := rfl
@[simp] theorem State.complete_sym : (s.complete).sym = s.sym := rfl
@[simp] theorem State.complete_pen : (s.complete).pen = s.pen := rfl
@[simp] theorem State.complete_grids : (s.complete).grids = s.grids := rfl
@[simp] theorem State.complete_env : (s.complete).env = s.env := rfl

/-! ### State.raiseErr -/

@[simp] theorem State.raiseErr_busy (c : ErrCode) : (s.raiseErr c).busy = false := rfl
@[simp] theorem State.raiseErr_done (c : ErrCode) : (s.raiseErr c).done = s.done := rfl
@[simp] theorem State.raiseErr_err (c : ErrCode) : (s.raiseErr c).err = true := rfl
@[simp] theorem State.raiseErr_drop (c : ErrCode) : (s.raiseErr c).drop = s.drop := rfl
@[simp] theorem State.raiseErr_phase (c : ErrCode) : (s.raiseErr c).phase = s.phase := rfl
@[simp] theorem State.raiseErr_intEn (c : ErrCode) : (s.raiseErr c).intEn = s.intEn := rfl
@[simp] theorem State.raiseErr_errCode (c : ErrCode) : (s.raiseErr c).errCode = c := rfl
@[simp] theorem State.raiseErr_errCmd (c : ErrCode) : (s.raiseErr c).errCmd = s.latch.word := rfl
@[simp] theorem State.raiseErr_cmd (c : ErrCode) : (s.raiseErr c).cmd = s.cmd := rfl
@[simp] theorem State.raiseErr_arg0 (c : ErrCode) : (s.raiseErr c).arg0 = s.arg0 := rfl
@[simp] theorem State.raiseErr_arg1 (c : ErrCode) : (s.raiseErr c).arg1 = s.arg1 := rfl
@[simp] theorem State.raiseErr_arg2 (c : ErrCode) : (s.raiseErr c).arg2 = s.arg2 := rfl
@[simp] theorem State.raiseErr_result (c : ErrCode) : (s.raiseErr c).result = s.result := rfl
@[simp] theorem State.raiseErr_latch (c : ErrCode) : (s.raiseErr c).latch = Latch.idle := rfl
@[simp] theorem State.raiseErr_bufs (c : ErrCode) : (s.raiseErr c).bufs = s.bufs := rfl
@[simp] theorem State.raiseErr_sym (c : ErrCode) : (s.raiseErr c).sym = s.sym := rfl
@[simp] theorem State.raiseErr_pen (c : ErrCode) : (s.raiseErr c).pen = s.pen := rfl
@[simp] theorem State.raiseErr_grids (c : ErrCode) : (s.raiseErr c).grids = s.grids := rfl
@[simp] theorem State.raiseErr_env (c : ErrCode) : (s.raiseErr c).env = s.env := rfl

/-! ### State.clearStatus -/

@[simp] theorem State.clearStatus_busy (v : Word) : (s.clearStatus v).busy = s.busy := rfl
@[simp] theorem State.clearStatus_done (v : Word) : (s.clearStatus v).done = (s.done && !v.getLsbD 1) := rfl
@[simp] theorem State.clearStatus_err (v : Word) : (s.clearStatus v).err = (s.err && !v.getLsbD 2) := rfl
@[simp] theorem State.clearStatus_drop (v : Word) : (s.clearStatus v).drop = (s.drop && !v.getLsbD 3) := rfl
@[simp] theorem State.clearStatus_phase (v : Word) : (s.clearStatus v).phase = s.phase := rfl
@[simp] theorem State.clearStatus_intEn (v : Word) : (s.clearStatus v).intEn = s.intEn := rfl
@[simp] theorem State.clearStatus_errCode (v : Word) : (s.clearStatus v).errCode = s.errCode := rfl
@[simp] theorem State.clearStatus_errCmd (v : Word) : (s.clearStatus v).errCmd = s.errCmd := rfl
@[simp] theorem State.clearStatus_cmd (v : Word) : (s.clearStatus v).cmd = s.cmd := rfl
@[simp] theorem State.clearStatus_arg0 (v : Word) : (s.clearStatus v).arg0 = s.arg0 := rfl
@[simp] theorem State.clearStatus_arg1 (v : Word) : (s.clearStatus v).arg1 = s.arg1 := rfl
@[simp] theorem State.clearStatus_arg2 (v : Word) : (s.clearStatus v).arg2 = s.arg2 := rfl
@[simp] theorem State.clearStatus_result (v : Word) : (s.clearStatus v).result = s.result := rfl
@[simp] theorem State.clearStatus_latch (v : Word) : (s.clearStatus v).latch = s.latch := rfl
@[simp] theorem State.clearStatus_bufs (v : Word) : (s.clearStatus v).bufs = s.bufs := rfl
@[simp] theorem State.clearStatus_sym (v : Word) : (s.clearStatus v).sym = s.sym := rfl
@[simp] theorem State.clearStatus_pen (v : Word) : (s.clearStatus v).pen = s.pen := rfl
@[simp] theorem State.clearStatus_grids (v : Word) : (s.clearStatus v).grids = s.grids := rfl
@[simp] theorem State.clearStatus_env (v : Word) : (s.clearStatus v).env = s.env := rfl

/-! ### State.accept -/

@[simp] theorem State.accept_busy (w : Word) : (s.accept w).busy = true := rfl
@[simp] theorem State.accept_done (w : Word) : (s.accept w).done = s.done := rfl
@[simp] theorem State.accept_err (w : Word) : (s.accept w).err = s.err := rfl
@[simp] theorem State.accept_drop (w : Word) : (s.accept w).drop = s.drop := rfl
@[simp] theorem State.accept_phase (w : Word) : (s.accept w).phase = s.phase := rfl
@[simp] theorem State.accept_intEn (w : Word) : (s.accept w).intEn = s.intEn := rfl
@[simp] theorem State.accept_errCode (w : Word) : (s.accept w).errCode = s.errCode := rfl
@[simp] theorem State.accept_errCmd (w : Word) : (s.accept w).errCmd = s.errCmd := rfl
@[simp] theorem State.accept_cmd (w : Word) : (s.accept w).cmd = w := rfl
@[simp] theorem State.accept_arg0 (w : Word) : (s.accept w).arg0 = s.arg0 := rfl
@[simp] theorem State.accept_arg1 (w : Word) : (s.accept w).arg1 = s.arg1 := rfl
@[simp] theorem State.accept_arg2 (w : Word) : (s.accept w).arg2 = s.arg2 := rfl
@[simp] theorem State.accept_result (w : Word) : (s.accept w).result = s.result := rfl
@[simp] theorem State.accept_latch (w : Word) : (s.accept w).latch = ⟨w, s.arg0, s.arg1, s.arg2⟩ := rfl
@[simp] theorem State.accept_bufs (w : Word) : (s.accept w).bufs = s.bufs := rfl
@[simp] theorem State.accept_sym (w : Word) : (s.accept w).sym = s.sym := rfl
@[simp] theorem State.accept_pen (w : Word) : (s.accept w).pen = s.pen := rfl
@[simp] theorem State.accept_grids (w : Word) : (s.accept w).grids = s.grids := rfl
@[simp] theorem State.accept_env (w : Word) : (s.accept w).env = { s.env with hold := s.env.latencies.headD 0, latencies := s.env.latencies.tail } := rfl

/-! ### State.resetBlock -/

@[simp] theorem State.resetBlock_busy : (s.resetBlock).busy = State.reset.busy := rfl
@[simp] theorem State.resetBlock_done : (s.resetBlock).done = State.reset.done := rfl
@[simp] theorem State.resetBlock_err : (s.resetBlock).err = State.reset.err := rfl
@[simp] theorem State.resetBlock_drop : (s.resetBlock).drop = State.reset.drop := rfl
@[simp] theorem State.resetBlock_phase : (s.resetBlock).phase = State.reset.phase := rfl
@[simp] theorem State.resetBlock_intEn : (s.resetBlock).intEn = State.reset.intEn := rfl
@[simp] theorem State.resetBlock_errCode : (s.resetBlock).errCode = State.reset.errCode := rfl
@[simp] theorem State.resetBlock_errCmd : (s.resetBlock).errCmd = State.reset.errCmd := rfl
@[simp] theorem State.resetBlock_cmd : (s.resetBlock).cmd = State.reset.cmd := rfl
@[simp] theorem State.resetBlock_arg0 : (s.resetBlock).arg0 = State.reset.arg0 := rfl
@[simp] theorem State.resetBlock_arg1 : (s.resetBlock).arg1 = State.reset.arg1 := rfl
@[simp] theorem State.resetBlock_arg2 : (s.resetBlock).arg2 = State.reset.arg2 := rfl
@[simp] theorem State.resetBlock_result : (s.resetBlock).result = State.reset.result := rfl
@[simp] theorem State.resetBlock_latch : (s.resetBlock).latch = State.reset.latch := rfl
@[simp] theorem State.resetBlock_bufs : (s.resetBlock).bufs = State.reset.bufs := rfl
@[simp] theorem State.resetBlock_sym : (s.resetBlock).sym = State.reset.sym := rfl
@[simp] theorem State.resetBlock_pen : (s.resetBlock).pen = State.reset.pen := rfl
@[simp] theorem State.resetBlock_grids : (s.resetBlock).grids = State.reset.grids := rfl
@[simp] theorem State.resetBlock_env : (s.resetBlock).env = s.env := rfl

/-! ### State.setIntEn -/

@[simp] theorem State.setIntEn_busy (v : Word) : (s.setIntEn v).busy = s.busy := rfl
@[simp] theorem State.setIntEn_done (v : Word) : (s.setIntEn v).done = s.done := rfl
@[simp] theorem State.setIntEn_err (v : Word) : (s.setIntEn v).err = s.err := rfl
@[simp] theorem State.setIntEn_drop (v : Word) : (s.setIntEn v).drop = s.drop := rfl
@[simp] theorem State.setIntEn_phase (v : Word) : (s.setIntEn v).phase = s.phase := rfl
@[simp] theorem State.setIntEn_intEn (v : Word) : (s.setIntEn v).intEn = IntEn.ofWord v := rfl
@[simp] theorem State.setIntEn_errCode (v : Word) : (s.setIntEn v).errCode = s.errCode := rfl
@[simp] theorem State.setIntEn_errCmd (v : Word) : (s.setIntEn v).errCmd = s.errCmd := rfl
@[simp] theorem State.setIntEn_cmd (v : Word) : (s.setIntEn v).cmd = s.cmd := rfl
@[simp] theorem State.setIntEn_arg0 (v : Word) : (s.setIntEn v).arg0 = s.arg0 := rfl
@[simp] theorem State.setIntEn_arg1 (v : Word) : (s.setIntEn v).arg1 = s.arg1 := rfl
@[simp] theorem State.setIntEn_arg2 (v : Word) : (s.setIntEn v).arg2 = s.arg2 := rfl
@[simp] theorem State.setIntEn_result (v : Word) : (s.setIntEn v).result = s.result := rfl
@[simp] theorem State.setIntEn_latch (v : Word) : (s.setIntEn v).latch = s.latch := rfl
@[simp] theorem State.setIntEn_bufs (v : Word) : (s.setIntEn v).bufs = s.bufs := rfl
@[simp] theorem State.setIntEn_sym (v : Word) : (s.setIntEn v).sym = s.sym := rfl
@[simp] theorem State.setIntEn_pen (v : Word) : (s.setIntEn v).pen = s.pen := rfl
@[simp] theorem State.setIntEn_grids (v : Word) : (s.setIntEn v).grids = s.grids := rfl
@[simp] theorem State.setIntEn_env (v : Word) : (s.setIntEn v).env = s.env := rfl

/-! ### State.answer -/

@[simp] theorem State.answer_busy (o : BitVec 16) (v : Word) : (s.answer o v).busy = s.busy := rfl
@[simp] theorem State.answer_done (o : BitVec 16) (v : Word) : (s.answer o v).done = s.done := rfl
@[simp] theorem State.answer_err (o : BitVec 16) (v : Word) : (s.answer o v).err = s.err := rfl
@[simp] theorem State.answer_drop (o : BitVec 16) (v : Word) : (s.answer o v).drop = s.drop := rfl
@[simp] theorem State.answer_phase (o : BitVec 16) (v : Word) : (s.answer o v).phase = s.phase := rfl
@[simp] theorem State.answer_intEn (o : BitVec 16) (v : Word) : (s.answer o v).intEn = s.intEn := rfl
@[simp] theorem State.answer_errCode (o : BitVec 16) (v : Word) : (s.answer o v).errCode = s.errCode := rfl
@[simp] theorem State.answer_errCmd (o : BitVec 16) (v : Word) : (s.answer o v).errCmd = s.errCmd := rfl
@[simp] theorem State.answer_cmd (o : BitVec 16) (v : Word) : (s.answer o v).cmd = s.cmd := rfl
@[simp] theorem State.answer_arg0 (o : BitVec 16) (v : Word) : (s.answer o v).arg0 = s.arg0 := rfl
@[simp] theorem State.answer_arg1 (o : BitVec 16) (v : Word) : (s.answer o v).arg1 = s.arg1 := rfl
@[simp] theorem State.answer_arg2 (o : BitVec 16) (v : Word) : (s.answer o v).arg2 = s.arg2 := rfl
@[simp] theorem State.answer_result (o : BitVec 16) (v : Word) : (s.answer o v).result = s.result := rfl
@[simp] theorem State.answer_latch (o : BitVec 16) (v : Word) : (s.answer o v).latch = s.latch := rfl
@[simp] theorem State.answer_bufs (o : BitVec 16) (v : Word) : (s.answer o v).bufs = s.bufs := rfl
@[simp] theorem State.answer_sym (o : BitVec 16) (v : Word) : (s.answer o v).sym = s.sym := rfl
@[simp] theorem State.answer_pen (o : BitVec 16) (v : Word) : (s.answer o v).pen = s.pen := rfl
@[simp] theorem State.answer_grids (o : BitVec 16) (v : Word) : (s.answer o v).grids = s.grids := rfl
@[simp] theorem State.answer_env (o : BitVec 16) (v : Word) : (s.answer o v).env = { s.env with reads := (o, v) :: s.env.reads } := rfl

/-! ### State.drawRead -/

@[simp] theorem State.drawRead_busy : (s.drawRead).busy = s.busy := rfl
@[simp] theorem State.drawRead_done : (s.drawRead).done = s.done := rfl
@[simp] theorem State.drawRead_err : (s.drawRead).err = s.err := rfl
@[simp] theorem State.drawRead_drop : (s.drawRead).drop = s.drop := rfl
@[simp] theorem State.drawRead_phase : (s.drawRead).phase = s.phase := rfl
@[simp] theorem State.drawRead_intEn : (s.drawRead).intEn = s.intEn := rfl
@[simp] theorem State.drawRead_errCode : (s.drawRead).errCode = s.errCode := rfl
@[simp] theorem State.drawRead_errCmd : (s.drawRead).errCmd = s.errCmd := rfl
@[simp] theorem State.drawRead_cmd : (s.drawRead).cmd = s.cmd := rfl
@[simp] theorem State.drawRead_arg0 : (s.drawRead).arg0 = s.arg0 := rfl
@[simp] theorem State.drawRead_arg1 : (s.drawRead).arg1 = s.arg1 := rfl
@[simp] theorem State.drawRead_arg2 : (s.drawRead).arg2 = s.arg2 := rfl
@[simp] theorem State.drawRead_result : (s.drawRead).result = s.result := rfl
@[simp] theorem State.drawRead_latch : (s.drawRead).latch = s.latch := rfl
@[simp] theorem State.drawRead_bufs : (s.drawRead).bufs = s.bufs := rfl
@[simp] theorem State.drawRead_sym : (s.drawRead).sym = s.sym := rfl
@[simp] theorem State.drawRead_pen : (s.drawRead).pen = s.pen := rfl
@[simp] theorem State.drawRead_grids : (s.drawRead).grids = s.grids := rfl
@[simp] theorem State.drawRead_env : (s.drawRead).env = { s.env with draws := s.env.draws + 1 } := rfl

/-! ### State.takeOp -/

@[simp] theorem State.takeOp_busy : (s.takeOp).busy = s.busy := rfl
@[simp] theorem State.takeOp_done : (s.takeOp).done = s.done := rfl
@[simp] theorem State.takeOp_err : (s.takeOp).err = s.err := rfl
@[simp] theorem State.takeOp_drop : (s.takeOp).drop = s.drop := rfl
@[simp] theorem State.takeOp_phase : (s.takeOp).phase = s.phase := rfl
@[simp] theorem State.takeOp_intEn : (s.takeOp).intEn = s.intEn := rfl
@[simp] theorem State.takeOp_errCode : (s.takeOp).errCode = s.errCode := rfl
@[simp] theorem State.takeOp_errCmd : (s.takeOp).errCmd = s.errCmd := rfl
@[simp] theorem State.takeOp_cmd : (s.takeOp).cmd = s.cmd := rfl
@[simp] theorem State.takeOp_arg0 : (s.takeOp).arg0 = s.arg0 := rfl
@[simp] theorem State.takeOp_arg1 : (s.takeOp).arg1 = s.arg1 := rfl
@[simp] theorem State.takeOp_arg2 : (s.takeOp).arg2 = s.arg2 := rfl
@[simp] theorem State.takeOp_result : (s.takeOp).result = s.result := rfl
@[simp] theorem State.takeOp_latch : (s.takeOp).latch = s.latch := rfl
@[simp] theorem State.takeOp_bufs : (s.takeOp).bufs = s.bufs := rfl
@[simp] theorem State.takeOp_sym : (s.takeOp).sym = s.sym := rfl
@[simp] theorem State.takeOp_pen : (s.takeOp).pen = s.pen := rfl
@[simp] theorem State.takeOp_grids : (s.takeOp).grids = s.grids := rfl
@[simp] theorem State.takeOp_env : (s.takeOp).env = { s.env with inbox := s.env.inbox.tail, hold := s.env.hold - 1 } := rfl

/-! ### State.putBack -/

@[simp] theorem State.putBack_busy (op : BusOp) : (s.putBack op).busy = s.busy := rfl
@[simp] theorem State.putBack_done (op : BusOp) : (s.putBack op).done = s.done := rfl
@[simp] theorem State.putBack_err (op : BusOp) : (s.putBack op).err = s.err := rfl
@[simp] theorem State.putBack_drop (op : BusOp) : (s.putBack op).drop = s.drop := rfl
@[simp] theorem State.putBack_phase (op : BusOp) : (s.putBack op).phase = s.phase := rfl
@[simp] theorem State.putBack_intEn (op : BusOp) : (s.putBack op).intEn = s.intEn := rfl
@[simp] theorem State.putBack_errCode (op : BusOp) : (s.putBack op).errCode = s.errCode := rfl
@[simp] theorem State.putBack_errCmd (op : BusOp) : (s.putBack op).errCmd = s.errCmd := rfl
@[simp] theorem State.putBack_cmd (op : BusOp) : (s.putBack op).cmd = s.cmd := rfl
@[simp] theorem State.putBack_arg0 (op : BusOp) : (s.putBack op).arg0 = s.arg0 := rfl
@[simp] theorem State.putBack_arg1 (op : BusOp) : (s.putBack op).arg1 = s.arg1 := rfl
@[simp] theorem State.putBack_arg2 (op : BusOp) : (s.putBack op).arg2 = s.arg2 := rfl
@[simp] theorem State.putBack_result (op : BusOp) : (s.putBack op).result = s.result := rfl
@[simp] theorem State.putBack_latch (op : BusOp) : (s.putBack op).latch = s.latch := rfl
@[simp] theorem State.putBack_bufs (op : BusOp) : (s.putBack op).bufs = s.bufs := rfl
@[simp] theorem State.putBack_sym (op : BusOp) : (s.putBack op).sym = s.sym := rfl
@[simp] theorem State.putBack_pen (op : BusOp) : (s.putBack op).pen = s.pen := rfl
@[simp] theorem State.putBack_grids (op : BusOp) : (s.putBack op).grids = s.grids := rfl
@[simp] theorem State.putBack_env (op : BusOp) : (s.putBack op).env = { s.env with inbox := op :: s.env.inbox } := rfl

/-! ### State.withCommand -/

@[simp] theorem State.withCommand_busy (w : Word) : (s.withCommand w).busy = true := rfl
@[simp] theorem State.withCommand_done (w : Word) : (s.withCommand w).done = s.done := rfl
@[simp] theorem State.withCommand_err (w : Word) : (s.withCommand w).err = s.err := rfl
@[simp] theorem State.withCommand_drop (w : Word) : (s.withCommand w).drop = s.drop := rfl
@[simp] theorem State.withCommand_phase (w : Word) : (s.withCommand w).phase = s.phase := rfl
@[simp] theorem State.withCommand_intEn (w : Word) : (s.withCommand w).intEn = s.intEn := rfl
@[simp] theorem State.withCommand_errCode (w : Word) : (s.withCommand w).errCode = s.errCode := rfl
@[simp] theorem State.withCommand_errCmd (w : Word) : (s.withCommand w).errCmd = s.errCmd := rfl
@[simp] theorem State.withCommand_cmd (w : Word) : (s.withCommand w).cmd = w := rfl
@[simp] theorem State.withCommand_arg0 (w : Word) : (s.withCommand w).arg0 = s.arg0 := rfl
@[simp] theorem State.withCommand_arg1 (w : Word) : (s.withCommand w).arg1 = s.arg1 := rfl
@[simp] theorem State.withCommand_arg2 (w : Word) : (s.withCommand w).arg2 = s.arg2 := rfl
@[simp] theorem State.withCommand_result (w : Word) : (s.withCommand w).result = s.result := rfl
@[simp] theorem State.withCommand_latch (w : Word) : (s.withCommand w).latch = ⟨w, s.arg0, s.arg1, s.arg2⟩ := rfl
@[simp] theorem State.withCommand_bufs (w : Word) : (s.withCommand w).bufs = s.bufs := rfl
@[simp] theorem State.withCommand_sym (w : Word) : (s.withCommand w).sym = s.sym := rfl
@[simp] theorem State.withCommand_pen (w : Word) : (s.withCommand w).pen = s.pen := rfl
@[simp] theorem State.withCommand_grids (w : Word) : (s.withCommand w).grids = s.grids := rfl
@[simp] theorem State.withCommand_env (w : Word) : (s.withCommand w).env = { s.env with hold := 0 } := rfl

/-! ### State.setArg -/

@[simp] theorem State.setArg_busy (j : Fin 3) (v : Word) : (s.setArg j v).busy = s.busy :=
  match j with | 0 => rfl | 1 => rfl | 2 => rfl
@[simp] theorem State.setArg_done (j : Fin 3) (v : Word) : (s.setArg j v).done = s.done :=
  match j with | 0 => rfl | 1 => rfl | 2 => rfl
@[simp] theorem State.setArg_err (j : Fin 3) (v : Word) : (s.setArg j v).err = s.err :=
  match j with | 0 => rfl | 1 => rfl | 2 => rfl
@[simp] theorem State.setArg_drop (j : Fin 3) (v : Word) : (s.setArg j v).drop = s.drop :=
  match j with | 0 => rfl | 1 => rfl | 2 => rfl
@[simp] theorem State.setArg_phase (j : Fin 3) (v : Word) : (s.setArg j v).phase = s.phase :=
  match j with | 0 => rfl | 1 => rfl | 2 => rfl
@[simp] theorem State.setArg_intEn (j : Fin 3) (v : Word) : (s.setArg j v).intEn = s.intEn :=
  match j with | 0 => rfl | 1 => rfl | 2 => rfl
@[simp] theorem State.setArg_errCode (j : Fin 3) (v : Word) : (s.setArg j v).errCode = s.errCode :=
  match j with | 0 => rfl | 1 => rfl | 2 => rfl
@[simp] theorem State.setArg_errCmd (j : Fin 3) (v : Word) : (s.setArg j v).errCmd = s.errCmd :=
  match j with | 0 => rfl | 1 => rfl | 2 => rfl
@[simp] theorem State.setArg_cmd (j : Fin 3) (v : Word) : (s.setArg j v).cmd = s.cmd :=
  match j with | 0 => rfl | 1 => rfl | 2 => rfl
@[simp] theorem State.setArg_result (j : Fin 3) (v : Word) : (s.setArg j v).result = s.result :=
  match j with | 0 => rfl | 1 => rfl | 2 => rfl
@[simp] theorem State.setArg_latch (j : Fin 3) (v : Word) : (s.setArg j v).latch = s.latch :=
  match j with | 0 => rfl | 1 => rfl | 2 => rfl
@[simp] theorem State.setArg_bufs (j : Fin 3) (v : Word) : (s.setArg j v).bufs = s.bufs :=
  match j with | 0 => rfl | 1 => rfl | 2 => rfl
@[simp] theorem State.setArg_sym (j : Fin 3) (v : Word) : (s.setArg j v).sym = s.sym :=
  match j with | 0 => rfl | 1 => rfl | 2 => rfl
@[simp] theorem State.setArg_pen (j : Fin 3) (v : Word) : (s.setArg j v).pen = s.pen :=
  match j with | 0 => rfl | 1 => rfl | 2 => rfl
@[simp] theorem State.setArg_grids (j : Fin 3) (v : Word) : (s.setArg j v).grids = s.grids :=
  match j with | 0 => rfl | 1 => rfl | 2 => rfl
@[simp] theorem State.setArg_env (j : Fin 3) (v : Word) : (s.setArg j v).env = s.env :=
  match j with | 0 => rfl | 1 => rfl | 2 => rfl
@[simp] theorem State.setArg0_arg0 (v : Word) : (s.setArg 0 v).arg0 = v := rfl
@[simp] theorem State.setArg0_arg1 (v : Word) : (s.setArg 0 v).arg1 = s.arg1 := rfl
@[simp] theorem State.setArg0_arg2 (v : Word) : (s.setArg 0 v).arg2 = s.arg2 := rfl
@[simp] theorem State.setArg1_arg0 (v : Word) : (s.setArg 1 v).arg0 = s.arg0 := rfl
@[simp] theorem State.setArg1_arg1 (v : Word) : (s.setArg 1 v).arg1 = v := rfl
@[simp] theorem State.setArg1_arg2 (v : Word) : (s.setArg 1 v).arg2 = s.arg2 := rfl
@[simp] theorem State.setArg2_arg0 (v : Word) : (s.setArg 2 v).arg0 = s.arg0 := rfl
@[simp] theorem State.setArg2_arg1 (v : Word) : (s.setArg 2 v).arg1 = s.arg1 := rfl
@[simp] theorem State.setArg2_arg2 (v : Word) : (s.setArg 2 v).arg2 = v := rfl

end Sys2Proof.Machine
end

