-- ==== Sys2Proof/Laws/Buffers.lean ====
section
/-! SUPPORT. Bitstream buffers and bit groups: reads after writes, lengths and elements. -/

namespace Sys2Proof.Machine

theorem State.buf_setBuf (s : State) (i j : BufIdx) (b : Bits) :
    (s.setBuf i b).buf j = if j = i then b else s.buf j := by
  show (s.bufs.set i.val b i.isLt)[j.val] = _
  rw [Vector.getElem_set]
  by_cases h : j = i
  · subst h; simp
  · rw [if_neg (fun e => h (Fin.ext e.symm)), if_neg h]; rfl

@[simp] theorem State.buf_setBuf_same (s : State) (i : BufIdx) (b : Bits) : (s.setBuf i b).buf i = b := by
  simp [State.buf_setBuf]

theorem State.buf_setBuf_of_ne (s : State) {i j : BufIdx} (b : Bits) (h : j ≠ i) : (s.setBuf i b).buf j = s.buf j := by
  simp [State.buf_setBuf, h]

@[simp] theorem State.buf_appendBuf_same (s : State) (i : BufIdx) (b : Bits) :
    (s.appendBuf i b).buf i = s.buf i ++ b := State.buf_setBuf_same _ _ _

theorem State.buf_appendBuf_of_ne (s : State) {i j : BufIdx} (b : Bits) (h : j ≠ i) :
    (s.appendBuf i b).buf j = s.buf j := State.buf_setBuf_of_ne _ _ h

@[simp] theorem State.buf_complete (s : State) (i : BufIdx) : s.complete.buf i = s.buf i := rfl

@[simp] theorem State.buf_setResult (s : State) (v : Word) (i : BufIdx) : (s.setResult v).buf i = s.buf i := rfl

@[simp] theorem State.buf_raiseErr (s : State) (c : ErrCode) (i : BufIdx) : (s.raiseErr c).buf i = s.buf i := rfl

@[simp] theorem State.len_complete (s : State) (i : BufIdx) : s.complete.len i = s.len i := rfl

@[simp] theorem State.len_raiseErr (s : State) (c : ErrCode) (i : BufIdx) : (s.raiseErr c).len i = s.len i := rfl

theorem State.fits_iff (s : State) (i : BufIdx) (n : Nat) : s.fits i n = true ↔ s.len i + n ≤ 32768 := by
  unfold State.fits Config.bsCap
  exact decide_eq_true_iff

theorem State.len_setBuf (s : State) (i j : BufIdx) (b : Bits) :
    (s.setBuf i b).len j = if j = i then b.length else s.len j := by
  unfold State.len; rw [State.buf_setBuf]; split <;> rfl

/-- A command that may append n bits keeps the capacity when the room was checked (41_bitstream.md R69). -/
theorem State.len_appendBuf_le (s : State) (i : BufIdx) (b : Bits) (h : s.fits i b.length = true)
    (hs : ∀ j, s.len j ≤ 32768) (j : BufIdx) : (s.appendBuf i b).len j ≤ 32768 := by
  rw [State.fits_iff] at h
  unfold State.appendBuf
  rw [State.len_setBuf]
  split
  · rw [List.length_append]; exact h
  · exact hs j

@[simp] theorem bitsMsbFirst_length (n : Nat) {w : Nat} (v : BitVec w) : (bitsMsbFirst n v).length = n := by
  simp [bitsMsbFirst]

theorem bitsMsbFirst_getElem? (n : Nat) {w : Nat} (v : BitVec w) {j : Nat} (h : j < n) :
    (bitsMsbFirst n v)[j]? = some (v.getLsbD (n - 1 - j)) := by
  simp [bitsMsbFirst, h]

@[simp] theorem byteBits_length (b : Byte) : (byteBits b).length = 8 := bitsMsbFirst_length 8 b

@[simp] theorem bytesBits_length (bs : List Byte) : (bytesBits bs).length = 8 * bs.length := by
  induction bs with
  | nil => rfl
  | cons b bs ih =>
    rw [bytesBits, List.flatMap_cons, List.length_append, byteBits_length, List.length_cons]
    rw [bytesBits] at ih
    omega

theorem slice_length (b : Bits) (lo hi : Nat) (h : hi ≤ b.length) : (slice b lo hi).length = hi - lo := by
  simp [slice, Nat.min_eq_left h]

theorem slice_getElem? (b : Bits) (lo hi k : Nat) (h : lo + k < hi) : (slice b lo hi)[k]? = b[lo + k]? := by
  simp [slice, h]

/-- The value of a bit group is below 2 to its length. -/
theorem bitsValue_lt (b : Bits) : bitsValue b < 2 ^ b.length := by
  unfold bitsValue
  suffices h : ∀ (b : Bits) (v : Nat), b.foldl (fun v bit => 2 * v + bit.toNat) v < (v + 1) * 2 ^ b.length by
    simpa using h b 0
  intro b
  induction b with
  | nil => intro v; simp
  | cons x xs ih =>
    intro v
    have hx : x.toNat ≤ 1 := by cases x <;> decide
    refine lt_of_lt_of_le (ih (2 * v + x.toNat)) ?_
    rw [List.length_cons, pow_succ]
    calc (2 * v + x.toNat + 1) * 2 ^ xs.length ≤ (2 * (v + 1)) * 2 ^ xs.length :=
          Nat.mul_le_mul_right _ (by omega)
      _ = (v + 1) * (2 ^ xs.length * 2) := by ring

/-! ## Reed-Solomon lengths -/

@[simp] theorem mulByRoot_length (g : List Byte) (r : Byte) : (mulByRoot g r).length = g.length + 1 := by
  simp [mulByRoot]

@[simp] theorem genPoly_length (t : Nat) : (genPoly t).length = t + 1 := by
  induction t with
  | zero => rfl
  | succ t ih =>
    rw [genPoly, List.range_succ, List.foldl_append, ← genPoly]
    simp [ih]

theorem divideStep_length (g rem : List Byte) (d : Byte) (h : g.length = rem.length) :
    (divideStep g rem d).length = rem.length := by
  cases rem with
  | nil => rfl
  | cons r rs => simp [divideStep, h]

@[simp] theorem parity_length (d : List Byte) (t : Nat) : (parity d t).length = t := by
  have key : ∀ (d rem : List Byte), rem.length = t →
      (d.foldl (divideStep (genPoly t).tail) rem).length = t := by
    intro d
    induction d with
    | nil => intro rem h; exact h
    | cons x xs ih =>
      intro rem h
      apply ih
      rw [divideStep_length _ _ _ (by simp [h]), h]
  exact key d _ (by simp)

@[simp] theorem codewordsAt_length (b : Bits) (lo k : Nat) : (codewordsAt b lo k).length = k := by
  simp [codewordsAt]

end Sys2Proof.Machine
end

