-- ==== Sys2Proof/Laws/Bus.lean ====
section
/-! SUPPORT. Everything an acceptance, a read, a write, an arriving operation and a step can do. -/

namespace Sys2Proof.Machine

/-- A CMD write is accepted or dropped (60_exceptions.md R137). -/
theorem State.issue_cases (s : State) (w : Word) :
    (s.busy = false ∧ s.err = false ∧ s.issue w = s.accept w) ∨
      ((s.busy = true ∨ s.err = true) ∧ s.issue w = { s with drop := true }) := by
  unfold State.issue
  cases s.busy <;> cases s.err <;> simp

/-- A read changes only the answers and the draw counter of the environment (20_memory.md R51). -/
theorem State.busRead_env (s : State) (off : BitVec 16) :
    ∃ v n, s.busRead off = { s with env := { s.env with reads := (off, v) :: s.env.reads, draws := n } } := by
  unfold State.busRead
  cases s.readValue off with
  | none => exact ⟨_, _, rfl⟩
  | some v => exact ⟨v, s.env.draws, rfl⟩

/-- A write is a reset, a clear, a write of INT_EN or an ARG register, a command issue, or ignored (R51). -/
theorem State.busWrite_cases (s : State) (off : BitVec 16) (v : Word) :
    s.busWrite off v = s.resetBlock ∨ s.busWrite off v = s.clearStatus v ∨ s.busWrite off v = s.setIntEn v ∨
      s.busWrite off v = s.issue v ∨ (∃ j, s.busWrite off v = s.setArg j v) ∨ s.busWrite off v = s := by
  unfold State.busWrite
  split
  · split
    · exact .inl rfl
    · exact .inr (.inr (.inr (.inr (.inr rfl))))
  · exact .inr (.inl rfl)
  · exact .inr (.inr (.inl rfl))
  · exact .inr (.inr (.inr (.inl rfl)))
  · exact .inr (.inr (.inr (.inr (.inl ⟨_, rfl⟩))))
  · exact .inr (.inr (.inr (.inr (.inr rfl))))
  · exact .inr (.inr (.inr (.inr (.inr rfl))))
  · exact .inr (.inr (.inr (.inr (.inr rfl))))

/-- An operation that arrives and is not refused is a read, a write, a `wait` that stays, or a reset. -/
theorem busOp_cases {op : BusOp} {s t : State} (h : busOp op s = .next t) :
    (∃ off, t = s.busRead off) ∨ (∃ off v, t = s.busWrite off v) ∨
      (s.busy = true ∧ t = (s.busRead statusOffset).putBack .wait) ∨ t = s.resetBlock := by
  unfold busOp at h
  split at h
  · split at h
    · cases h
    · split at h
      · cases h
      · injection h with h; exact .inl ⟨_, h.symm⟩
  · split at h
    · cases h
    · split at h
      · cases h
      · injection h with h; exact .inr (.inl ⟨_, _, h.symm⟩)
  · split at h
    · cases h
    · injection h with h; exact .inr (.inl ⟨_, _, h.symm⟩)
  · split at h
    · rename_i hb
      injection h with h; exact .inr (.inr (.inl ⟨hb, h.symm⟩))
    · injection h with h; exact .inl ⟨_, h.symm⟩
  · injection h with h; exact .inr (.inr (.inr h.symm))

/-- A step is the engine's (BUSY = 1), an idle one, or the arrival of the oldest operation of the inbox. -/
theorem step_cases {s t : State} (h : step s = .next t) :
    (s.engineMoves = true ∧ s.busy = true ∧ engineStep s = .next t) ∨
      (s.engineMoves = false ∧ s.env.inbox = [] ∧ t = s) ∨
      (s.engineMoves = false ∧ ∃ op rest, s.env.inbox = op :: rest ∧ busOp op s.takeOp = .next t) := by
  unfold step agentStep at h
  cases he : s.engineMoves with
  | true =>
    rw [he, if_pos rfl] at h
    refine .inl ⟨rfl, ?_, h⟩
    unfold State.engineMoves at he
    simp only [Bool.and_eq_true] at he
    exact he.1
  | false =>
    rw [he, if_neg (by simp)] at h
    unfold hostStep at h
    split at h
    · rename_i hi
      injection h with h
      exact .inr (.inl ⟨rfl, hi, h.symm⟩)
    · rename_i op rest hi
      exact .inr (.inr ⟨rfl, op, rest, hi, h⟩)

/-- The engine runs the decoded command, or ends the word with ILLEGAL (30_encoding.md R63). -/
theorem engineStep_cases (s : State) :
    (∃ i, decode s.latch.word = .ok i ∧ engineStep s = exec i s) ∨
      (∃ e, decode s.latch.word = .error e ∧ engineStep s = .next (s.raiseErr .illegal)) := by
  unfold engineStep fetch
  cases h : decode s.latch.word with
  | ok i => exact .inl ⟨i, rfl, rfl⟩
  | error e => exact .inr ⟨e, rfl, rfl⟩

end Sys2Proof.Machine
end

