-- ==== Sys2Proof/Laws/Commands.lean ====
section
/-! SUPPORT. The host's turn, the two ends of a command, the operand checks and the phase conditions, each said once. -/

namespace Sys2Proof.Machine

/-- In the host's turn the step is the arrival of the oldest operation. -/
theorem step_hostTurn {s : State} {op : BusOp} {rest : List BusOp} (h : HostTurn s op rest) :
    step s = busOp op s.takeOp := by
  obtain ⟨h₁, h₂⟩ := h
  have he : s.engineMoves = false := by
    unfold State.engineMoves
    rw [h₂]
    rcases h₁ with h | h <;> simp [h]
  unfold step agentStep hostStep
  rw [he, h₂]
  rfl

/-- `done` is the only outcome of finish (60_exceptions.md R135). -/
theorem State.finish_eq_next {s t : State} : s.finish = .next t ↔ t = s.complete := by
  unfold State.finish
  constructor
  · intro h; injection h with h; exact h.symm
  · rintro rfl; rfl

/-- The error completion is the only outcome of fail (R136). -/
theorem State.fail_eq_next {s t : State} {c : ErrCode} : s.fail c = .next t ↔ t = errorState s c := by
  unfold State.fail
  constructor
  · intro h; injection h with h; exact h.symm
  · rintro rfl; rfl

theorem State.fail_eq (s : State) (c : ErrCode) : s.fail c = .next (errorState s c) := rfl

/-- A buffer command that completes has the frame of R71 to R75. -/
theorem bufferFrame_setBuf (s : State) (sd : BufIdx) (b : Bits) : BufferFrame sd s (s.setBuf sd b).complete :=
  ⟨⟨rfl, rfl, rfl, rfl, rfl, rfl, rfl⟩, ⟨rfl, rfl, rfl, rfl, rfl, rfl⟩, ⟨rfl, rfl, rfl, rfl⟩, rfl,
    fun _ hj => State.buf_setBuf_of_ne s b hj⟩

/-- A command that writes RESULT and completes has the frame of R76 and R84 to R86. -/
theorem resultFrame_setResult (s : State) (v : Word) : ResultFrame s (s.setResult v).complete :=
  ⟨⟨rfl, rfl, rfl, rfl, rfl, rfl, rfl⟩, ⟨rfl, rfl, rfl, rfl, rfl, rfl⟩, ⟨rfl, rfl, rfl, rfl⟩, fun _ => rfl⟩

/-- A command that writes symbol state and completes has the frame of R97 to R100 and R114 to R116. -/
theorem symbolFrame_complete (s : State) (p : Phase) (y : SymRegs) (n : PenRegs) (g : Grids) :
    SymbolFrame s { s with phase := p, sym := y, pen := n, grids := g : State }.complete :=
  ⟨⟨rfl, rfl, rfl, rfl, rfl, rfl, rfl⟩, ⟨rfl, rfl, rfl, rfl, rfl, rfl⟩, rfl, fun _ => rfl⟩

theorem Phase.allowsMask_iff (p : Phase) : p.allowsMask = true ↔ p ∈ [Phase.placed, .masked, .final] := by
  cases p <;> decide

theorem Phase.allowsScore_iff (p : Phase) : p.allowsScore = true ↔ p ∈ [Phase.masked, .final] := by
  cases p <;> decide

/-- A byte operand is accepted exactly up to 255 and keeps its value (42_gf_rs.md R84). -/
theorem byteOperand_eq_some {v : Word} {b : Byte} : byteOperand v = some b ↔ v.toNat = b.toNat := by
  unfold byteOperand
  split
  · rename_i h
    rw [Option.some.injEq]
    constructor
    · rintro rfl; rw [BitVec.toNat_setWidth]; omega
    · intro e; apply BitVec.eq_of_toNat_eq; rw [BitVec.toNat_setWidth]; have := b.isLt; omega
  · rename_i h
    have := b.isLt
    constructor
    · intro e; cases e
    · intro e; omega

theorem byteOperand_eq_none {v : Word} : byteOperand v = none ↔ 255 < v.toNat := by
  unfold byteOperand
  split <;> simp <;> omega

/-- A version operand is accepted exactly in 1 .. 40 and keeps its value (43_symbol.md R97). -/
theorem versionOperand_eq_some {v : Word} {x : BitVec 6} :
    versionOperand v = some x ↔ 1 ≤ v.toNat ∧ v.toNat ≤ 40 ∧ x.toNat = v.toNat := by
  unfold versionOperand Config.vMin Config.vMax
  split
  · rename_i h
    rw [Option.some.injEq]
    constructor
    · rintro rfl; rw [BitVec.toNat_setWidth]; omega
    · rintro ⟨-, -, e⟩; apply BitVec.eq_of_toNat_eq; rw [BitVec.toNat_setWidth]; omega
  · rename_i h
    constructor
    · intro e; cases e
    · rintro ⟨h1, h2, -⟩; exact absurd ⟨h1, h2⟩ h

theorem versionOperand_eq_none {v : Word} : versionOperand v = none ↔ v.toNat < 1 ∨ 40 < v.toNat := by
  unfold versionOperand Config.vMin Config.vMax
  split <;> simp <;> omega

/-- A level operand is accepted exactly up to 3 and is the level of that index (30_encoding.md R61). -/
theorem levelOperand_eq_some {v : Word} {lvl : Level} : levelOperand v = some lvl ↔ v.toNat = lvl.index.toNat := by
  unfold levelOperand
  split <;> cases lvl <;> simp_all [Level.index]

theorem levelOperand_eq_none {v : Word} : levelOperand v = none ↔ 3 < v.toNat := by
  unfold levelOperand
  split <;> simp_all <;> omega

end Sys2Proof.Machine
end

