-- ==== Sys2Proof/Laws/Grid.lean ====
section
/-! SUPPORT. Reads of a grid after the operations that make or change one. -/

namespace Sys2Proof.Machine

/-- Module (X, Y) and module (X', Y') share a bit only if they are the same module. -/
theorem gridIndex_inj {X Y X' Y' : Nat} (h : X < 185) (h' : X' < 185) (e : 185 * Y + X = 185 * Y' + X') :
    X = X' ∧ Y = Y' := by omega

theorem Grid.read_of_row_ge (g : Grid) {X Y : Nat} (h : 185 ≤ Y) : g.read X Y = false := by
  simp only [Grid.read, Config.sizeMax, Bool.and_eq_false_imp]
  intro hX
  exact BitVec.getLsbD_of_ge _ _ (by omega)

theorem Grid.read_of_col_ge (g : Grid) {X Y : Nat} (h : 185 ≤ X) : g.read X Y = false := by
  simp [Grid.read, Config.sizeMax, Nat.not_lt.mpr h]

@[simp] theorem Grid.read_zero (X Y : Nat) : Grid.zero.read X Y = false := by
  simp [Grid.read, Grid.zero]

@[simp] theorem Grid.readInner_zero (x y : Nat) : Grid.zero.readInner x y = false := Grid.read_zero _ _

/-- A read after a write: the value written at the module written, every other module as before. -/
theorem Grid.read_write (g : Grid) (X Y X' Y' : Nat) (b : Bool) :
    (g.write X Y b).read X' Y' = if X' = X ∧ Y' = Y ∧ X < 185 ∧ Y < 185 then b else g.read X' Y' := by
  by_cases hX' : X' < 185
  · by_cases hX : X < 185
    · have key : ∀ i, ((1#34225) <<< (185 * Y + X)).getLsbD i = (decide (i < 34225) && decide (i = 185 * Y + X)) := by
        intro i
        rw [BitVec.getLsbD_shiftLeft, BitVec.getLsbD_one]
        by_cases h1 : i < 34225 <;> by_cases h2 : i = 185 * Y + X <;> simp [h1, h2] <;> omega
      have hi : (185 * Y' + X' = 185 * Y + X) ↔ (X' = X ∧ Y' = Y) :=
        ⟨fun e => gridIndex_inj hX' hX e, fun ⟨a, c⟩ => by rw [a, c]⟩
      by_cases hY' : Y' < 185
      · have hlt : 185 * Y' + X' < 34225 := by omega
        cases b <;> simp only [Grid.write, Grid.read, Config.sizeMax, hX, hX', if_true, Bool.false_eq_true, if_false,
          BitVec.getLsbD_or, BitVec.getLsbD_and, BitVec.getLsbD_not, key, hi, decide_true, Bool.true_and, hlt] <;>
          by_cases he : X' = X ∧ Y' = Y <;> simp [he]
        all_goals first
          | (obtain ⟨rfl, rfl⟩ := he; simp [hY'])
          | (intro _; omega)
      · rw [Grid.read_of_row_ge _ (by omega), Grid.read_of_row_ge _ (by omega)]
        rw [if_neg]; omega
    · simp only [Grid.write, Config.sizeMax, hX, if_false]
      rw [if_neg]; omega
  · rw [Grid.read_of_col_ge _ (by omega), Grid.read_of_col_ge _ (by omega)]
    split <;> [omega; rfl]

/-- Two grids with the same modules are equal. -/
theorem Grid.ext_read {g h : Grid} (e : ∀ X Y, X < 185 → Y < 185 → g.read X Y = h.read X Y) : g = h := by
  cases g with | mk a => cases h with | mk b =>
  congr 1
  apply BitVec.eq_of_getLsbD_eq
  intro i hi
  have := e (i % 185) (i / 185) (Nat.mod_lt _ (by decide)) (by omega)
  simpa [Grid.read, Config.sizeMax, Nat.mod_lt, Nat.div_add_mod] using this

theorem Grid.readInner_writeInner (g : Grid) (x y x' y' : Nat) (b : Bool) :
    (g.writeInner x y b).readInner x' y' =
      if x' = x ∧ y' = y ∧ x + 4 < 185 ∧ y + 4 < 185 then b else g.readInner x' y' := by
  unfold Grid.writeInner Grid.readInner
  rw [Grid.read_write]
  simp only [Config.quietZone, Nat.add_right_cancel_iff]

/-! ## Painting -/

@[simp] theorem Grid.paint_nil (g : Grid) : g.paint [] = g := rfl

@[simp] theorem Grid.paint_cons (g : Grid) (k : Stroke) (ks : List Stroke) :
    g.paint (k :: ks) = (g.writeInner k.x k.y k.dark).paint ks := rfl

theorem Grid.paint_append (g : Grid) (ks ls : List Stroke) : g.paint (ks ++ ls) = (g.paint ks).paint ls := by
  simp [Grid.paint, List.foldl_append]

/-- A module no stroke names is unchanged, in bordered coordinates. -/
theorem Grid.read_paint_of_not_mem (g : Grid) (ks : List Stroke) (X Y : Nat)
    (h : ∀ k ∈ ks, ¬(X = k.x + 4 ∧ Y = k.y + 4)) : (g.paint ks).read X Y = g.read X Y := by
  induction ks generalizing g with
  | nil => rfl
  | cons k ks ih =>
    rw [Grid.paint_cons, ih _ (fun l hl => h l (List.mem_cons_of_mem _ hl))]
    unfold Grid.writeInner
    rw [Grid.read_write, if_neg]
    intro ⟨a, c, _⟩
    exact h k List.mem_cons_self ⟨a, c⟩

theorem Grid.readInner_paint_of_not_mem (g : Grid) (ks : List Stroke) (x y : Nat)
    (h : ∀ k ∈ ks, ¬(x = k.x ∧ y = k.y)) : (g.paint ks).readInner x y = g.readInner x y := by
  apply Grid.read_paint_of_not_mem
  intro k hk
  simpa [Config.quietZone] using h k hk

/-- A module that some stroke names, every such stroke with the same colour, has that colour. -/
theorem Grid.readInner_paint_of_mem (g : Grid) (ks : List Stroke) (x y : Nat) (b : Bool)
    (hx : x + 4 < 185) (hy : y + 4 < 185) (hex : ∃ k ∈ ks, x = k.x ∧ y = k.y)
    (hall : ∀ k ∈ ks, x = k.x → y = k.y → k.dark = b) : (g.paint ks).readInner x y = b := by
  induction ks generalizing g with
  | nil => obtain ⟨k, hk, _⟩ := hex; cases hk
  | cons k ks ih =>
    rw [Grid.paint_cons]
    by_cases hrest : ∃ l ∈ ks, x = l.x ∧ y = l.y
    · exact ih _ hrest (fun l hl => hall l (List.mem_cons_of_mem _ hl))
    · rw [Grid.readInner_paint_of_not_mem _ _ _ _ (fun l hl e => hrest ⟨l, hl, e⟩)]
      obtain ⟨l, hl, e⟩ := hex
      rcases List.mem_cons.mp hl with rfl | hl'
      · rw [Grid.readInner_writeInner, if_pos ⟨e.1, e.2, by omega, by omega⟩]
        exact hall l List.mem_cons_self e.1 e.2
      · exact absurd ⟨l, hl', e⟩ hrest

/-! ## A grid made whole -/

theorem rowBits_getLsbD (side : Nat) (f : Nat → Bool) (X : Nat) :
    (rowBits side f).getLsbD X = (decide (4 ≤ X ∧ X < side + 4 ∧ X < 185) && f (X - 4)) := by
  unfold rowBits Config.quietZone
  have hstep : ∀ n (r : BitVec 185), (∀ X, r.getLsbD X = (decide (4 ≤ X ∧ X < n + 4 ∧ X < 185) && f (X - 4))) →
      ∀ X, (r ||| (BitVec.ofBool (f n)).setWidth 185 <<< (n + 4)).getLsbD X =
        (decide (4 ≤ X ∧ X < n + 1 + 4 ∧ X < 185) && f (X - 4)) := by
    intro n r hr X
    rw [BitVec.getLsbD_or, hr, BitVec.getLsbD_shiftLeft, BitVec.getLsbD_setWidth, BitVec.getLsbD_ofBool]
    by_cases hX : X = n + 4
    · subst hX
      by_cases h : n + 4 < 185 <;> simp [h]
    · by_cases h1 : X < n + 4
      · simp [h1, show X < n + 1 + 4 by omega]
      · have h2 : ¬ X < n + 1 + 4 := by omega
        have h3 : X - (n + 4) ≠ 0 := by omega
        simp [h1, h2, h3]
  induction side generalizing X with
  | zero =>
    have : ¬(4 ≤ X ∧ X < 0 + 4 ∧ X < 185) := by omega
    simp [this]
  | succ n ih =>
    rw [List.range_succ, List.foldl_append]
    exact hstep n _ (fun X => ih X) X

/-- Module (X, Y) of a tabulated grid: the function's value inside, light outside (44_mask.md R113). -/
theorem Grid.read_tabulate (side : Nat) (f : Nat → Nat → Bool) (X Y : Nat) :
    (Grid.tabulate side f).read X Y =
      (decide (4 ≤ X ∧ X < side + 4 ∧ X < 185 ∧ 4 ≤ Y ∧ Y < side + 4 ∧ Y < 185) && f (X - 4) (Y - 4)) := by
  by_cases hX : X < 185
  swap
  · rw [Grid.read_of_col_ge _ (by omega)]
    have : ¬(4 ≤ X ∧ X < side + 4 ∧ X < 185 ∧ 4 ≤ Y ∧ Y < side + 4 ∧ Y < 185) := by omega
    simp [this]
  have hstep : ∀ n (g : BitVec 34225),
      (∀ Y, g.getLsbD (185 * Y + X) =
        (decide (4 ≤ X ∧ X < side + 4 ∧ 4 ≤ Y ∧ Y < n + 4 ∧ Y < 185) && f (X - 4) (Y - 4))) →
      ∀ Y, (g ||| (rowBits side (f · n)).setWidth 34225 <<< (185 * (n + 4))).getLsbD (185 * Y + X) =
        (decide (4 ≤ X ∧ X < side + 4 ∧ 4 ≤ Y ∧ Y < n + 1 + 4 ∧ Y < 185) && f (X - 4) (Y - 4)) := by
    intro n g hg Y
    rw [BitVec.getLsbD_or, hg, BitVec.getLsbD_shiftLeft, BitVec.getLsbD_setWidth, rowBits_getLsbD]
    by_cases hY : Y = n + 4
    · subst hY
      have e : 185 * (n + 4) + X - 185 * (n + 4) = X := by omega
      rw [e]
      by_cases h : n + 4 < 185
      · have h1 : 185 * (n + 4) + X < 34225 := by omega
        have h2 : X < 34225 := by omega
        have h3 : ¬ 185 * (n + 4) + X < 185 * (n + 4) := by omega
        by_cases a : 4 ≤ X <;> by_cases c : X < side + 4 <;> simp [h, h1, h2, h3, a, c, hX]
      · have h1 : ¬ 185 * (n + 4) + X < 34225 := by omega
        simp [h, h1]
    · by_cases h1 : Y < n + 4
      · have h2 : 185 * Y + X < 185 * (n + 4) := by omega
        have h3 : Y < n + 1 + 4 := by omega
        simp [h1, h2, h3]
      · have h2 : ¬ Y < n + 1 + 4 := by omega
        have h3 : ¬ 185 * Y + X - 185 * (n + 4) < 185 := by omega
        simp [h1, h2, h3]
  have hall : ∀ n Y, ((List.range n).foldl
      (fun g y => g ||| (rowBits side (f · y)).setWidth 34225 <<< (185 * (y + 4))) (0 : BitVec 34225)).getLsbD
        (185 * Y + X) =
        (decide (4 ≤ X ∧ X < side + 4 ∧ 4 ≤ Y ∧ Y < n + 4 ∧ Y < 185) && f (X - 4) (Y - 4)) := by
    intro n
    induction n with
    | zero =>
      intro Y
      have : ¬(4 ≤ X ∧ X < side + 4 ∧ 4 ≤ Y ∧ Y < 0 + 4 ∧ Y < 185) := by omega
      simp [this]
    | succ n ih =>
      intro Y
      rw [List.range_succ, List.foldl_append]
      exact hstep n _ ih Y
  unfold Grid.read Grid.tabulate Config.sizeMax Config.quietZone
  rw [hall side Y]
  simp [hX]

theorem Grid.readInner_tabulate (side : Nat) (f : Nat → Nat → Bool) (x y : Nat) (h : side ≤ 177) :
    (Grid.tabulate side f).readInner x y = (decide (x < side ∧ y < side) && f x y) := by
  unfold Grid.readInner Config.quietZone
  rw [Grid.read_tabulate]
  have : (4 ≤ x + 4 ∧ x + 4 < side + 4 ∧ x + 4 < 185 ∧ 4 ≤ y + 4 ∧ y + 4 < side + 4 ∧ y + 4 < 185) ↔
      (x < side ∧ y < side) := by omega
  rw [show _ = decide (x < side ∧ y < side) from decide_eq_decide.mpr this, Nat.add_sub_cancel, Nat.add_sub_cancel]

/-! ## Windows -/

/-- Bit b of window word w of a row is module X = 32·w + b (20_memory.md R49), 0 past the 185 modules. -/
theorem Grid.windowWord_getLsbD (g : Grid) (row word b : Nat) :
    (g.windowWord row word).getLsbD b = (decide (b < 32) && g.read (32 * word + b) row) := by
  unfold Grid.windowWord Grid.row Grid.read Config.sizeMax
  rw [BitVec.getLsbD_setWidth, BitVec.getLsbD_ushiftRight, BitVec.getLsbD_setWidth, BitVec.getLsbD_ushiftRight]

end Sys2Proof.Machine
end

