-- ==== Sys2Proof/Machine/Assembly.lean ====
section
/-! DEFINITION. QRSB assembly (30_encoding.md R65) and its pseudo-instructions (R66): what the host sends for each line. -/

namespace Sys2Proof.Machine

/-- A line of QRSB assembly. The first eighteen are the mnemonics of R65, the rest the pseudo-instructions of R66. -/
inductive AsmLine where
  | nop
  | bsClear (sd : BufIdx)
  | bsBits (sd : BufIdx) (n : Nat) (value : Word)
  | bsBools (sd : BufIdx) (b : Bool) (count : Word)
  | bsAppend (sd ss : BufIdx)
  | bsSubstr (sd ss : BufIdx) (lo hi : Word)
  | bsByteAt (ss : BufIdx) (i : Word)
  | gfMul (a b : Word)
  | gfExp (i : Word)
  | gfLog (a : Word)
  | rsGenpoly (sd : BufIdx) (t : Word)
  | rsEncode (sd ss : BufIdx) (lo k t : Word)
  | symInit (version level : Word)
  | symFunction
  | symPlace (ss : BufIdx)
  | symMask (m : MaskIdx)
  | symScore
  | symSelect
  | wait
  | ack
  | rd (r : Reg)
  | srst
  | bsByte (sd : BufIdx) (v : Word)
  | bsPad (sd : BufIdx) (count : Word)
  | bsCopy (sd ss : BufIdx)
  | symBuild (version level : Word) (ss : BufIdx)
  deriving DecidableEq, Repr

/-- The offset of a register (10_state.md R14). -/
def Reg.offset (r : Reg) : BitVec 16 :=
  match registerMap.find? (fun e => e.2 == r) with
  | some e => BitVec.ofNat 16 e.1
  | none => 0

/-- A 32-bit write of a register. -/
def writeReg (r : Reg) (v : Word) : BusOp := .write r.offset .w32 v

/-- The ARG writes of a command line, in the order ARG0, ARG1, ARG2 (R65). -/
def argWrites (args : List Word) : List BusOp :=
  List.zipWith (fun j v => writeReg (.arg j) v) [0, 1, 2] args

/-- A command line (R65): its ARG writes, then `wait`, then the CMD write. -/
def commandLine (i : Instr) (args : List Word) : List BusOp :=
  argWrites args ++ [.wait, writeReg .cmd (encode i)]

/-- `rd NAME` (R66): `wait`, then the read. -/
def readLine (r : Reg) : List BusOp := [.wait, .read r.offset .w32]

/-- The host accesses of a line (R65, R66). A `bs.bits` line whose N does not fit the 6-bit field (R58) has no command word
and the spec does not say what an assembler does with it: that the word of `encode` is sent all the same, N reduced modulo
2^16 and filling bits 31:16, is the model's choice (DESIGN CHOICE, log 19). -/
def AsmLine.expand : AsmLine → List BusOp
  | .nop => commandLine .nop []
  | .bsClear sd => commandLine (.bsClear sd) []
  | .bsBits sd n value => commandLine (.bsAppendBits sd n) [value]
  | .bsBools sd b count => commandLine (.bsAppendBools sd b) [count]
  | .bsAppend sd ss => commandLine (.bsAppend sd ss) []
  | .bsSubstr sd ss lo hi => commandLine (.bsSubstr sd ss) [lo, hi]
  | .bsByteAt ss i => commandLine (.bsByteAt ss) [i]
  | .gfMul a b => commandLine .gfMul [a, b]
  | .gfExp i => commandLine .gfExp [i]
  | .gfLog a => commandLine .gfLog [a]
  | .rsGenpoly sd t => commandLine (.rsGenpoly sd) [t]
  | .rsEncode sd ss lo k t => commandLine (.rsEncode sd ss) [lo, k, t]
  | .symInit version level => commandLine .symInit [version, level]
  | .symFunction => commandLine .symFunction []
  | .symPlace ss => commandLine (.symPlace ss) []
  | .symMask m => commandLine (.symApplyMask m) []
  | .symScore => commandLine .symScore []
  | .symSelect => commandLine .symSelectMask []
  | .wait => [.wait]
  | .ack => [writeReg .status 0x0000000E]
  | .rd r => readLine r
  | .srst => [writeReg .ctrl 0x00000001]
  | .bsByte sd v => commandLine (.bsAppendBits sd 8) [v]
  | .bsPad sd count => commandLine (.bsAppendBools sd false) [count]
  | .bsCopy sd ss =>
    readLine (.bsLen ss) ++
      [writeReg (.arg 0) 0, .writeLast (Reg.arg 1).offset, .wait, writeReg .cmd (encode (.bsSubstr sd ss))]
  | .symBuild version level ss =>
    commandLine .symInit [version, level] ++ commandLine .symFunction [] ++ commandLine (.symPlace ss) [] ++
      commandLine .symSelectMask []

/-- The host accesses of a program: its lines, and the `wait` every program ends with (R66). -/
def assemble (lines : List AsmLine) : List BusOp := lines.flatMap AsmLine.expand ++ [.wait]

/-- A state whose host is about to run a program (70_reset_and_hazards.md R155). -/
def State.withProgram (s : State) (lines : List AsmLine) : State :=
  { s with env := { s.env with inbox := assemble lines } }

end Sys2Proof.Machine
end

