-- ==== Sys2Proof/Machine/HostProcedures.lean ====
section
/-! DEFINITION. The host procedures of 48_host_procedures.md, as functions that give QRSB assembly. They are host
software, out of the block's scope (00_scope.md R4); nothing of step depends on them. -/

namespace Sys2Proof.Machine

/-! ## Segment encoder (R121 to R124) -/

/-- The segment modes (R121). -/
inductive Mode where
  | numeric | alphanumeric | byte
  deriving DecidableEq, Repr

/-- The version buckets (R121): B1 = 1 to 9, B2 = 10 to 26, B3 = 27 to 40. -/
inductive Bucket where
  | b1 | b2 | b3
  deriving DecidableEq, Repr

/-- The source's error kinds (R131). -/
inductive HostError where
  | contentTooLong | invalidVersion | versionCapacityExceeded
  /-- With the block's ERRCODE and the version (R129 step 5). -/
  | internalInvariant (code : ErrCode) (version : Nat)
  deriving DecidableEq, Repr

/-- Why a segment cannot be encoded in a bucket. -/
inductive SegmentError where
  /-- The count does not fit the bucket's count width (R121: `content_too_long`). -/
  | contentTooLong
  /-- A character is not of the mode's alphabet (R123, R124); no source error, since a host does not choose the mode
  then. -/
  | outsideAlphabet
  deriving DecidableEq, Repr

/-- A field of a segment: a value in so many bits, MSB-first. -/
structure SegField where
  width : Nat
  value : Nat
  deriving DecidableEq, Repr

/-- The 4-bit mode indicator (R121). -/
def Mode.indicator : Mode → Nat
  | .numeric => 1
  | .alphanumeric => 2
  | .byte => 4

/-- The width of the character count (R121). -/
def Mode.countWidth : Mode → Bucket → Nat
  | .numeric, .b1 => 10
  | .numeric, .b2 => 12
  | .numeric, .b3 => 14
  | .alphanumeric, .b1 => 9
  | .alphanumeric, .b2 => 11
  | .alphanumeric, .b3 => 13
  | .byte, .b1 => 8
  | .byte, .b2 => 16
  | .byte, .b3 => 16

/-- The versions of a bucket, ascending (R121). -/
def Bucket.versions : Bucket → List Nat
  | .b1 => List.range' 1 9
  | .b2 => List.range' 10 17
  | .b3 => List.range' 27 14

/-- The value of a digit, ASCII 0x30 to 0x39 (R123). -/
def digitValue (c : Byte) : Option Nat := if 0x30 ≤ c.toNat ∧ c.toNat ≤ 0x39 then some (c.toNat - 0x30) else none

/-- The value of an alphanumeric character (R124). -/
def alnumValue (c : Byte) : Option Nat :=
  if 0x30 ≤ c.toNat ∧ c.toNat ≤ 0x39 then some (c.toNat - 0x30)
  else if 0x41 ≤ c.toNat ∧ c.toNat ≤ 0x5A then some (c.toNat - 0x41 + 10)
  else
    match c.toNat with
    | 0x20 => some 36
    | 0x24 => some 37
    | 0x25 => some 38
    | 0x2A => some 39
    | 0x2B => some 40
    | 0x2D => some 41
    | 0x2E => some 42
    | 0x2F => some 43
    | 0x3A => some 44
    | _ => none

/-- Digits in groups of 3 from the left, 10 bits; a final group of 2 is 7 bits, of 1 is 4 bits (R123). -/
def numericFields : List Nat → List SegField
  | a :: b :: c :: rest => ⟨10, 100 * a + 10 * b + c⟩ :: numericFields rest
  | [a, b] => [⟨7, 10 * a + b⟩]
  | [a] => [⟨4, a⟩]
  | [] => []

/-- Characters in pairs from the left, 45·a + b in 11 bits; a final single character is 6 bits (R124). -/
def alnumFields : List Nat → List SegField
  | a :: b :: rest => ⟨11, 45 * a + b⟩ :: alnumFields rest
  | [a] => [⟨6, a⟩]
  | [] => []

/-- The payload of a segment; none where a character is not of the mode's alphabet. -/
def payloadFields (mode : Mode) (content : List Byte) : Option (List SegField) :=
  match mode with
  | .numeric => (content.mapM digitValue).map numericFields
  | .alphanumeric => (content.mapM alnumValue).map alnumFields
  | .byte => some (content.map fun c => ⟨8, c.toNat⟩)

/-- The mode a host that wishes for `mode` uses (R121 to R124): numeric and alphanumeric are optional and only for content
of their alphabet; Byte mode takes every content. Log 15. -/
def Mode.forContent (mode : Mode) (content : List Byte) : Mode :=
  if (payloadFields mode content).isSome then mode else .byte

/-- `mode ‖ count ‖ payload` (R121), or why there is none: the count, checked first, or the alphabet. -/
def segmentFields (mode : Mode) (b : Bucket) (content : List Byte) : Except SegmentError (List SegField) :=
  if content.length ≥ 2 ^ mode.countWidth b then .error .contentTooLong
  else
    match payloadFields mode content with
    | some p => .ok (⟨4, mode.indicator⟩ :: ⟨mode.countWidth b, content.length⟩ :: p)
    | none => .error .outsideAlphabet

/-- The length of a segment in bits. -/
def fieldsLength (fs : List SegField) : Nat := (fs.map SegField.width).sum

/-- The lines that leave a segment in s0 (R122). -/
def segmentLines (fs : List SegField) : List AsmLine :=
  .bsClear 0 :: fs.map fun f => .bsBits 0 f.width (BitVec.ofNat 32 f.value)

/-! ## Version tables and selector (R125, R126) -/

/-- A group of n blocks of `total` codewords with `data` data codewords each (R125). -/
structure BlockGroup where
  n : Nat
  total : Nat
  data : Nat
  deriving DecidableEq, Repr

/-- A row of R125's table: remainder bits and the groups of each level, in declaration order. -/
structure VersionRow where
  rem : Nat
  l : List BlockGroup
  m : List BlockGroup
  q : List BlockGroup
  h : List BlockGroup
  deriving DecidableEq, Repr

/-- R125's table, versions 1 to 40. -/
def versionTable : List VersionRow :=
  [ ⟨0, [⟨1, 26, 19⟩], [⟨1, 26, 16⟩],
      [⟨1, 26, 13⟩], [⟨1, 26, 9⟩]⟩,
    ⟨7, [⟨1, 44, 34⟩], [⟨1, 44, 28⟩],
      [⟨1, 44, 22⟩], [⟨1, 44, 16⟩]⟩,
    ⟨7, [⟨1, 70, 55⟩], [⟨1, 70, 44⟩],
      [⟨2, 35, 17⟩], [⟨2, 35, 13⟩]⟩,
    ⟨7, [⟨1, 100, 80⟩], [⟨2, 50, 32⟩],
      [⟨2, 50, 24⟩], [⟨4, 25, 9⟩]⟩,
    ⟨7, [⟨1, 134, 108⟩], [⟨2, 67, 43⟩],
      [⟨2, 33, 15⟩, ⟨2, 34, 16⟩], [⟨2, 33, 11⟩, ⟨2, 34, 12⟩]⟩ ] ++
  [ ⟨7, [⟨2, 86, 68⟩], [⟨4, 43, 27⟩],
      [⟨4, 43, 19⟩], [⟨4, 43, 15⟩]⟩,
    ⟨0, [⟨2, 98, 78⟩], [⟨4, 49, 31⟩],
      [⟨2, 32, 14⟩, ⟨4, 33, 15⟩], [⟨4, 39, 13⟩, ⟨1, 40, 14⟩]⟩,
    ⟨0, [⟨2, 121, 97⟩], [⟨2, 60, 38⟩, ⟨2, 61, 39⟩],
      [⟨4, 40, 18⟩, ⟨2, 41, 19⟩], [⟨4, 40, 14⟩, ⟨2, 41, 15⟩]⟩,
    ⟨0, [⟨2, 146, 116⟩], [⟨3, 58, 36⟩, ⟨2, 59, 37⟩],
      [⟨4, 36, 16⟩, ⟨4, 37, 17⟩], [⟨4, 36, 12⟩, ⟨4, 37, 13⟩]⟩,
    ⟨0, [⟨2, 86, 68⟩, ⟨2, 87, 69⟩], [⟨4, 69, 43⟩, ⟨1, 70, 44⟩],
      [⟨6, 43, 19⟩, ⟨2, 44, 20⟩], [⟨6, 43, 15⟩, ⟨2, 44, 16⟩]⟩ ] ++
  [ ⟨0, [⟨4, 101, 81⟩], [⟨1, 80, 50⟩, ⟨4, 81, 51⟩],
      [⟨4, 50, 22⟩, ⟨4, 51, 23⟩], [⟨3, 36, 12⟩, ⟨8, 37, 13⟩]⟩,
    ⟨0, [⟨2, 116, 92⟩, ⟨2, 117, 93⟩], [⟨6, 58, 36⟩, ⟨2, 59, 37⟩],
      [⟨4, 46, 20⟩, ⟨6, 47, 21⟩], [⟨7, 42, 14⟩, ⟨4, 43, 15⟩]⟩,
    ⟨0, [⟨4, 133, 107⟩], [⟨8, 59, 37⟩, ⟨1, 60, 38⟩],
      [⟨8, 44, 20⟩, ⟨4, 45, 21⟩], [⟨12, 33, 11⟩, ⟨4, 34, 12⟩]⟩,
    ⟨3, [⟨3, 145, 115⟩, ⟨1, 146, 116⟩], [⟨4, 64, 40⟩, ⟨5, 65, 41⟩],
      [⟨11, 36, 16⟩, ⟨5, 37, 17⟩], [⟨11, 36, 12⟩, ⟨5, 37, 13⟩]⟩,
    ⟨3, [⟨5, 109, 87⟩, ⟨1, 110, 88⟩], [⟨5, 65, 41⟩, ⟨5, 66, 42⟩],
      [⟨5, 54, 24⟩, ⟨7, 55, 25⟩], [⟨11, 36, 12⟩, ⟨7, 37, 13⟩]⟩ ] ++
  [ ⟨3, [⟨5, 122, 98⟩, ⟨1, 123, 99⟩], [⟨7, 73, 45⟩, ⟨3, 74, 46⟩],
      [⟨15, 43, 19⟩, ⟨2, 44, 20⟩], [⟨3, 45, 15⟩, ⟨13, 46, 16⟩]⟩,
    ⟨3, [⟨1, 135, 107⟩, ⟨5, 136, 108⟩], [⟨10, 74, 46⟩, ⟨1, 75, 47⟩],
      [⟨1, 50, 22⟩, ⟨15, 51, 23⟩], [⟨2, 42, 14⟩, ⟨17, 43, 15⟩]⟩,
    ⟨3, [⟨5, 150, 120⟩, ⟨1, 151, 121⟩], [⟨9, 69, 43⟩, ⟨4, 70, 44⟩],
      [⟨17, 50, 22⟩, ⟨1, 51, 23⟩], [⟨2, 42, 14⟩, ⟨19, 43, 15⟩]⟩,
    ⟨3, [⟨3, 141, 113⟩, ⟨4, 142, 114⟩], [⟨3, 70, 44⟩, ⟨11, 71, 45⟩],
      [⟨17, 47, 21⟩, ⟨4, 48, 22⟩], [⟨9, 39, 13⟩, ⟨16, 40, 14⟩]⟩,
    ⟨3, [⟨3, 135, 107⟩, ⟨5, 136, 108⟩], [⟨3, 67, 41⟩, ⟨13, 68, 42⟩],
      [⟨15, 54, 24⟩, ⟨5, 55, 25⟩], [⟨15, 43, 15⟩, ⟨10, 44, 16⟩]⟩ ] ++
  [ ⟨4, [⟨4, 144, 116⟩, ⟨4, 145, 117⟩], [⟨17, 68, 42⟩],
      [⟨17, 50, 22⟩, ⟨6, 51, 23⟩], [⟨19, 46, 16⟩, ⟨6, 47, 17⟩]⟩,
    ⟨4, [⟨2, 139, 111⟩, ⟨7, 140, 112⟩], [⟨17, 74, 46⟩],
      [⟨7, 54, 24⟩, ⟨16, 55, 25⟩], [⟨34, 37, 13⟩]⟩,
    ⟨4, [⟨4, 151, 121⟩, ⟨5, 152, 122⟩], [⟨4, 75, 47⟩, ⟨14, 76, 48⟩],
      [⟨11, 54, 24⟩, ⟨14, 55, 25⟩], [⟨16, 45, 15⟩, ⟨14, 46, 16⟩]⟩,
    ⟨4, [⟨6, 147, 117⟩, ⟨4, 148, 118⟩], [⟨6, 73, 45⟩, ⟨14, 74, 46⟩],
      [⟨11, 54, 24⟩, ⟨16, 55, 25⟩], [⟨30, 46, 16⟩, ⟨2, 47, 17⟩]⟩,
    ⟨4, [⟨8, 132, 106⟩, ⟨4, 133, 107⟩], [⟨8, 75, 47⟩, ⟨13, 76, 48⟩],
      [⟨7, 54, 24⟩, ⟨22, 55, 25⟩], [⟨22, 45, 15⟩, ⟨13, 46, 16⟩]⟩ ] ++
  [ ⟨4, [⟨10, 142, 114⟩, ⟨2, 143, 115⟩], [⟨19, 74, 46⟩, ⟨4, 75, 47⟩],
      [⟨28, 50, 22⟩, ⟨6, 51, 23⟩], [⟨33, 46, 16⟩, ⟨4, 47, 17⟩]⟩,
    ⟨4, [⟨8, 152, 122⟩, ⟨4, 153, 123⟩], [⟨22, 73, 45⟩, ⟨3, 74, 46⟩],
      [⟨8, 53, 23⟩, ⟨26, 54, 24⟩], [⟨12, 45, 15⟩, ⟨28, 46, 16⟩]⟩,
    ⟨3, [⟨3, 147, 117⟩, ⟨10, 148, 118⟩], [⟨3, 73, 45⟩, ⟨23, 74, 46⟩],
      [⟨4, 54, 24⟩, ⟨31, 55, 25⟩], [⟨11, 45, 15⟩, ⟨31, 46, 16⟩]⟩,
    ⟨3, [⟨7, 146, 116⟩, ⟨7, 147, 117⟩], [⟨21, 73, 45⟩, ⟨7, 74, 46⟩],
      [⟨1, 53, 23⟩, ⟨37, 54, 24⟩], [⟨19, 45, 15⟩, ⟨26, 46, 16⟩]⟩,
    ⟨3, [⟨5, 145, 115⟩, ⟨10, 146, 116⟩], [⟨19, 75, 47⟩, ⟨10, 76, 48⟩],
      [⟨15, 54, 24⟩, ⟨25, 55, 25⟩], [⟨23, 45, 15⟩, ⟨25, 46, 16⟩]⟩ ] ++
  [ ⟨3, [⟨13, 145, 115⟩, ⟨3, 146, 116⟩], [⟨2, 74, 46⟩, ⟨29, 75, 47⟩],
      [⟨42, 54, 24⟩, ⟨1, 55, 25⟩], [⟨23, 45, 15⟩, ⟨28, 46, 16⟩]⟩,
    ⟨3, [⟨17, 145, 115⟩], [⟨10, 74, 46⟩, ⟨23, 75, 47⟩],
      [⟨10, 54, 24⟩, ⟨35, 55, 25⟩], [⟨19, 45, 15⟩, ⟨35, 46, 16⟩]⟩,
    ⟨3, [⟨17, 145, 115⟩, ⟨1, 146, 116⟩], [⟨14, 74, 46⟩, ⟨21, 75, 47⟩],
      [⟨29, 54, 24⟩, ⟨19, 55, 25⟩], [⟨11, 45, 15⟩, ⟨46, 46, 16⟩]⟩,
    ⟨3, [⟨13, 145, 115⟩, ⟨6, 146, 116⟩], [⟨14, 74, 46⟩, ⟨23, 75, 47⟩],
      [⟨44, 54, 24⟩, ⟨7, 55, 25⟩], [⟨59, 46, 16⟩, ⟨1, 47, 17⟩]⟩,
    ⟨0, [⟨12, 151, 121⟩, ⟨7, 152, 122⟩], [⟨12, 75, 47⟩, ⟨26, 76, 48⟩],
      [⟨39, 54, 24⟩, ⟨14, 55, 25⟩], [⟨22, 45, 15⟩, ⟨41, 46, 16⟩]⟩ ] ++
  [ ⟨0, [⟨6, 151, 121⟩, ⟨14, 152, 122⟩], [⟨6, 75, 47⟩, ⟨34, 76, 48⟩],
      [⟨46, 54, 24⟩, ⟨10, 55, 25⟩], [⟨2, 45, 15⟩, ⟨64, 46, 16⟩]⟩,
    ⟨0, [⟨17, 152, 122⟩, ⟨4, 153, 123⟩], [⟨29, 74, 46⟩, ⟨14, 75, 47⟩],
      [⟨49, 54, 24⟩, ⟨10, 55, 25⟩], [⟨24, 45, 15⟩, ⟨46, 46, 16⟩]⟩,
    ⟨0, [⟨4, 152, 122⟩, ⟨18, 153, 123⟩], [⟨13, 74, 46⟩, ⟨32, 75, 47⟩],
      [⟨48, 54, 24⟩, ⟨14, 55, 25⟩], [⟨42, 45, 15⟩, ⟨32, 46, 16⟩]⟩,
    ⟨0, [⟨20, 147, 117⟩, ⟨4, 148, 118⟩], [⟨40, 75, 47⟩, ⟨7, 76, 48⟩],
      [⟨43, 54, 24⟩, ⟨22, 55, 25⟩], [⟨10, 45, 15⟩, ⟨67, 46, 16⟩]⟩,
    ⟨0, [⟨19, 148, 118⟩, ⟨6, 149, 119⟩], [⟨18, 75, 47⟩, ⟨31, 76, 48⟩],
      [⟨34, 54, 24⟩, ⟨34, 55, 25⟩], [⟨20, 45, 15⟩, ⟨61, 46, 16⟩]⟩ ]

/-- The row of a version; one with no blocks outside 1 to 40. -/
def versionRow (version : Nat) : VersionRow :=
  if version = 0 then ⟨0, [], [], [], []⟩ else versionTable.getD (version - 1) ⟨0, [], [], [], []⟩

/-- The groups of a version and level (R125). -/
def blockGroups (version : Nat) (lvl : Level) : List BlockGroup :=
  match lvl with
  | .l => (versionRow version).l
  | .m => (versionRow version).m
  | .q => (versionRow version).q
  | .h => (versionRow version).h

/-- numDataCodewords (R125). -/
def numDataCodewords (version : Nat) (lvl : Level) : Nat :=
  ((blockGroups version lvl).map fun g => g.n * g.data).sum

/-- numDataBits (R125). -/
def numDataBits (version : Nat) (lvl : Level) : Nat := 8 * numDataCodewords version lvl

/-- Parity codewords per block, equal for all blocks of a cell (R125). -/
def parityPerBlock (version : Nat) (lvl : Level) : Nat :=
  match blockGroups version lvl with
  | [] => 0
  | g :: _ => g.total - g.data

/-- The data lengths k_j of the blocks, in declaration order (R127). -/
def blockLengths (version : Nat) (lvl : Level) : List Nat :=
  (blockGroups version lvl).flatMap fun g => List.replicate g.n g.data

/-- The version selector (R126): the first version of the bucket that holds `len` bits. -/
def selectVersion (lvl : Level) (b : Bucket) (len : Nat) : Option Nat :=
  b.versions.find? fun v => decide (len ≤ numDataBits v lvl)

/-! ## Block formatter (R127, R128) -/

/-- Pad bytes 0xEC, 0x11, alternately (R127 step 3). -/
def padLines : Nat → Bool → List AsmLine
  | 0, _ => []
  | n + 1, ec => .bsBits 0 8 (if ec then 0xEC else 0x11) :: padLines n (!ec)

/-- The blocks as (first data byte off_j, k_j), off_0 = 0 (R127 step 5). -/
def blockSlices : Nat → List Nat → List (Nat × Nat)
  | _, [] => []
  | off, k :: ks => (off, k) :: blockSlices (off + k) ks

/-- One codeword of a buffer, appended to s2 through s3 (R128). -/
def moveCodeword (ss : BufIdx) (index : Nat) : List AsmLine :=
  [.bsSubstr 3 ss (BitVec.ofNat 32 (8 * index)) (BitVec.ofNat 32 (8 * index + 8)), .bsAppend 2 3]

/-- The interleaving (R128): data codeword i of every block that has one, for i = 0, 1, …; then parity codeword i of
every block, for i = 0 .. t − 1. -/
def interleaveLines (blocks : List (Nat × Nat)) (t : Nat) : List AsmLine :=
  ((List.range ((blocks.map Prod.snd).foldl max 0)).flatMap fun i =>
      blocks.flatMap fun (off, k) => if i < k then moveCodeword 0 (off + i) else []) ++
    (List.range t).flatMap fun i => (List.range blocks.length).flatMap fun j => moveCodeword 1 (j * t + i)

/-- The block formatter (R127): the encoded payload of `len` bits in s0 to the formatted stream in s2. Step 4's read of
BS_LEN0 is checked by HostPlan.lengthAsserted. -/
def formatterLines (version : Nat) (lvl : Level) (len : Nat) : List AsmLine :=
  let nd := numDataBits version lvl
  let terminator := min 4 (nd - len)
  let align := (8 - (len + terminator) % 8) % 8
  let padBytes := (nd - (len + terminator + align)) / 8
  let blocks := blockSlices 0 (blockLengths version lvl)
  let t := parityPerBlock version lvl
  [.bsBools 0 false (BitVec.ofNat 32 terminator), .bsBools 0 false (BitVec.ofNat 32 align)] ++
    padLines padBytes true ++ [.rd (.bsLen 0)] ++ [.bsClear 1] ++
    blocks.map (fun (off, k) =>
      .rsEncode 1 0 (BitVec.ofNat 32 off) (BitVec.ofNat 32 k) (BitVec.ofNat 32 t)) ++
    [.bsClear 2] ++ interleaveLines blocks t ++
    [.bsBools 2 false (BitVec.ofNat 32 (versionRow version).rem)]

/-! ## Top-level encode (R129 to R131) -/

/-- What the host has decided to do (R129, R130): the version, the level and the lines it sends. -/
structure HostPlan where
  version : Nat
  level : Level
  lines : List AsmLine
  deriving DecidableEq, Repr

/-- Steps (3) and (4) of R129 for a chosen version, after the segment is in s0. -/
def buildPlan (version : Nat) (lvl : Level) (fs : List SegField) : HostPlan :=
  { version := version, level := lvl,
    lines :=
      segmentLines fs ++ formatterLines version lvl (fieldsLength fs) ++
        [.symBuild (BitVec.ofNat 32 version) (lvl.index.setWidth 32) 2] }

/-- Encode in a bucket and select a version there (R129 step 1); none when either fails. R129 does not say whether the
commands of R122 reach the block for a bucket that fails: that the host computes the trial by itself, and only the chosen
bucket's lines are sent (buildPlan), none at all on content_too_long, is the model's choice (DESIGN CHOICE, log 20). -/
def tryBucket (mode : Mode) (content : List Byte) (lvl : Level) (b : Bucket) : Option (Nat × List SegField) :=
  match segmentFields mode b content with
  | .ok fs => (selectVersion lvl b (fieldsLength fs)).map fun v => (v, fs)
  | .error _ => none

/-- `encode(content, level)` (R129) of a host that wishes for `mode` (R121, R123, R124). -/
def encodeProgramIn (mode : Mode) (content : List Byte) (lvl : Level) : Except HostError HostPlan :=
  match [Bucket.b1, .b2, .b3].findSome? (tryBucket (mode.forContent content) content lvl) with
  | some (v, fs) => .ok (buildPlan v lvl fs)
  | none => .error .contentTooLong

/-- `encode(content, level)` (R129) of a conforming host: Byte mode (R122, 92_eei_decisions.md D38). -/
def encodeProgram (content : List Byte) (lvl : Level) : Except HostError HostPlan := encodeProgramIn .byte content lvl

/-- The bucket of a version (R121). -/
def bucketOf (version : Nat) : Bucket := if version ≤ 9 then .b1 else if version ≤ 26 then .b2 else .b3

/-- `encode_forced_version(content, v, level)` (R130) of a host that wishes for `mode`. -/
def encodeForcedIn (mode : Mode) (content : List Byte) (version : Nat) (lvl : Level) : Except HostError HostPlan :=
  if version < Config.vMin ∨ Config.vMax < version then .error .invalidVersion
  else
    match segmentFields (mode.forContent content) (bucketOf version) content with
    | .ok fs =>
      if fieldsLength fs ≤ numDataBits version lvl then .ok (buildPlan version lvl fs)
      else .error .versionCapacityExceeded
    | .error _ => .error .versionCapacityExceeded

/-- `encode_forced_version(content, v, level)` (R130) of a conforming host. -/
def encodeForced (content : List Byte) (version : Nat) (lvl : Level) : Except HostError HostPlan :=
  encodeForcedIn .byte content version lvl

/-- R127 step 4: the value the host read last from BS_LEN0 is numDataBits. -/
def HostPlan.lengthAsserted (p : HostPlan) (reads : List (BitVec 16 × Word)) : Bool :=
  reads.lookup (Reg.bsLen 0).offset == some (BitVec.ofNat 32 (numDataBits p.version p.level))

/-- The source's `EncodedSymbol` as the host reads it off the block (R129): matrices in bordered coordinates, row by
row. -/
structure EncodedSymbol where
  version : Nat
  mask : Nat
  bitmap : List (List Bool)
  finderBitmap : List (List Bool)
  lastAlignBitmap : List (List Bool)
  finderPoints : List Point
  borderSize : Nat
  deriving DecidableEq, Repr

/-- A size × size matrix of a grid (R129). -/
def Grid.matrix (g : Grid) (size : Nat) : List (List Bool) :=
  (List.range size).map fun Y => (List.range size).map fun X => g.read X Y

/-- The symbol a state holds (R129). -/
def State.encodedSymbol (s : State) : EncodedSymbol :=
  { version := s.versionNat, mask := s.sym.mask.toNat,
    bitmap := s.grids.out.matrix s.sym.size.toNat, finderBitmap := s.grids.finder.matrix s.sym.size.toNat,
    lastAlignBitmap := s.grids.lastAlign.matrix s.sym.size.toNat,
    finderPoints := [s.sym.fpTL, s.sym.fpTR, s.sym.fpBL], borderSize := Config.quietZone }

/-- What the host reports when the run of its plan has ended (R129 step 5, R131): `internal_invariant`, with ERRCODE and
the version, on any block error, on a length that fails R127's step 4, and on an empty module; else the symbol. -/
def hostReport (p : HostPlan) (s : State) : Except HostError EncodedSymbol :=
  if s.err || !p.lengthAsserted s.env.reads || s.sym.free != 0 then
    .error (.internalInvariant s.errCode p.version)
  else .ok s.encodedSymbol

end Sys2Proof.Machine
end

