-- ==== Sys2Proof/Laws/Host.lean ====
section
/-! SUPPORT. The segment encoder's outcomes (48_host_procedures.md R121 to R124). -/

namespace Sys2Proof.Machine

/-- A conforming host's wish is always met (R122). -/
@[simp] theorem Mode.forContent_byte (content : List Byte) : Mode.byte.forContent content = .byte := rfl

/-- The mode a host uses takes the content, so the only failure of a segment is the count's (R121). -/
theorem segmentFields_forContent (mode : Mode) (b : Bucket) (content : List Byte) :
    (∃ fs, segmentFields (mode.forContent content) b content = .ok fs) ∨
      (2 ^ (mode.forContent content).countWidth b ≤ content.length ∧
        segmentFields (mode.forContent content) b content = .error .contentTooLong) := by
  have hp : ∃ p, payloadFields (mode.forContent content) content = some p := by
    unfold Mode.forContent
    split
    · rename_i h; exact Option.isSome_iff_exists.mp h
    · exact ⟨_, rfl⟩
  obtain ⟨p, hp⟩ := hp
  unfold segmentFields
  split
  · rename_i h; exact .inr ⟨h, rfl⟩
  · rw [hp]; exact .inl ⟨_, rfl⟩

end Sys2Proof.Machine
end

