-- ==== Sys2Proof/Laws/PerInstr.lean ====
section
/-! SUPPORT. What is stated of every command as syntax: the word of a command has the bits R58 calls reserved at 0. -/

namespace Sys2Proof.Laws.ReservedBits

/-- Bits 15:13 and 31:22 of the word of a well-formed command are 0 (30_encoding.md R58). -/
def Statement (i : Instr) : Prop := i.wellFormed = true → encode i &&& 0xFFC0E000 = 0

theorem nop : Statement .nop := fun _ => by decide
theorem bsClear : ∀ sd, Statement (.bsClear sd) := fun sd _ => by revert sd; decide
theorem bsAppendBits : ∀ sd n, Statement (.bsAppendBits sd n) := by
  have key : ∀ sd : BufIdx, ∀ n < 64, encode (.bsAppendBits sd n) &&& 0xFFC0E000 = 0 := by decide
  exact fun sd n h => key sd n (of_decide_eq_true h)
theorem bsAppendBools : ∀ sd b, Statement (.bsAppendBools sd b) := fun sd b _ => by revert sd b; decide
theorem bsAppend : ∀ sd ss, Statement (.bsAppend sd ss) := fun sd ss _ => by revert sd ss; decide
theorem bsSubstr : ∀ sd ss, Statement (.bsSubstr sd ss) := fun sd ss _ => by revert sd ss; decide
theorem bsByteAt : ∀ ss, Statement (.bsByteAt ss) := fun ss _ => by revert ss; decide
theorem gfMul : Statement .gfMul := fun _ => by decide
theorem gfExp : Statement .gfExp := fun _ => by decide
theorem gfLog : Statement .gfLog := fun _ => by decide
theorem rsGenpoly : ∀ sd, Statement (.rsGenpoly sd) := fun sd _ => by revert sd; decide
theorem rsEncode : ∀ sd ss, Statement (.rsEncode sd ss) := fun sd ss _ => by revert sd ss; decide
theorem symInit : Statement .symInit := fun _ => by decide
theorem symFunction : Statement .symFunction := fun _ => by decide
theorem symPlace : ∀ ss, Statement (.symPlace ss) := fun ss _ => by revert ss; decide
theorem symApplyMask : ∀ m, Statement (.symApplyMask m) := fun m _ => by revert m; decide
theorem symScore : Statement .symScore := fun _ => by decide
theorem symSelectMask : Statement .symSelectMask := fun _ => by decide

end Sys2Proof.Laws.ReservedBits
end

