-- ==== Sys2Proof/Laws/Quiet.lean ====
section
/-! SUPPORT. Which grids leave the quiet zone light (10_state.md R26). -/

namespace Sys2Proof.Machine

theorem quietLight_zero (side : Nat) : QuietLight Grid.zero side := fun X Y _ => Grid.read_zero X Y

/-- Painting inner modules only keeps the quiet zone light. -/
theorem quietLight_paint {g : Grid} {side : Nat} {ks : List Stroke} (hg : QuietLight g side)
    (hk : ∀ k ∈ ks, k.x < side ∧ k.y < side) : QuietLight (g.paint ks) side := by
  intro X Y h
  rw [Grid.read_paint_of_not_mem, hg X Y h]
  rintro k hmem ⟨rfl, rfl⟩
  have := hk k hmem
  omega

theorem quietLight_tabulate (side : Nat) (f : Nat → Nat → Bool) : QuietLight (Grid.tabulate side f) side := by
  intro X Y h
  rw [Grid.read_tabulate]
  have : ¬(4 ≤ X ∧ X < side + 4 ∧ X < 185 ∧ 4 ≤ Y ∧ Y < side + 4 ∧ Y < 185) := by omega
  simp [this]

end Sys2Proof.Machine
end

