-- ==== Sys2Proof/Machine/Run.lean ====
section
/-! DEFINITION. The run of a program, where it ends, and its end state (70_reset_and_hazards.md R155). -/

namespace Sys2Proof.Machine

/-- What the end state of a run says (R155): every register, every buffer, every grid unless PHASE is EMPTY. It says
nothing of the environment (how many reads were made, what they answered) or of the engine. -/
structure EndState where
  busy : Bool
  done : Bool
  err : Bool
  drop : Bool
  phase : Phase
  intEn : IntEn
  errCode : ErrCode
  errCmd : Word
  cmd : Word
  arg0 : Word
  arg1 : Word
  arg2 : Word
  result : Word
  bufs : Vector Bits 4
  sym : SymRegs
  pen : PenRegs
  grids : Option Grids
  deriving DecidableEq, Repr

/-- The end state that a state is (R155). -/
def State.endState (s : State) : EndState :=
  { busy := s.busy, done := s.done, err := s.err, drop := s.drop, phase := s.phase, intEn := s.intEn,
    errCode := s.errCode, errCmd := s.errCmd, cmd := s.cmd, arg0 := s.arg0, arg1 := s.arg1, arg2 := s.arg2,
    result := s.result, bufs := s.bufs, sym := s.sym, pen := s.pen,
    grids := if s.phase = .empty then none else some s.grids }

/-- The offset of CMD (R14). -/
def cmdOffset : BitVec 16 := 0x018

/-- Is the operation a CMD write? -/
def BusOp.writesCmd : BusOp → Bool
  | .read _ _ => false
  | .write off _ _ => off == cmdOffset
  | .writeLast off => off == cmdOffset
  | .wait => false
  | .hwReset => false

/-- Was the last CMD write dropped (R137), after the next step of s? `dropped` says so before it. -/
def State.dropsNext (s : State) (dropped : Bool) : Bool :=
  if s.engineMoves then dropped
  else
    match s.env.inbox with
    | [] => dropped
    | op :: _ => if op.writesCmd then s.busy || s.err else dropped

/-- Is the operation a read: one access, or a poll of `wait`? -/
def BusOp.isRead : BusOp → Bool
  | .read _ _ => true
  | .write _ _ _ => false
  | .writeLast _ => false
  | .wait => true
  | .hwReset => false

/-- Does the arrival of op, with `rest` after it, end the run in a state where BUSY is `busy` (R155)? Where the last CMD
write was dropped, the first read after it ends the run: op is a read and no CMD write follows. Else the run ends at the
read of its final `wait` that returns BUSY = 0. Log 18. -/
def endsRun (dropped busy : Bool) (op : BusOp) (rest : List BusOp) : Bool :=
  if dropped then op.isRead && !rest.any BusOp.writesCmd else op == .wait && rest.isEmpty && !busy

/-- Is the next step of s the read that ends the run? -/
def State.endsNext (s : State) (dropped : Bool) : Bool :=
  if s.engineMoves then false
  else
    match s.env.inbox with
    | [] => false
    | op :: rest => endsRun dropped s.busy op rest

/-- How far a run has come. -/
inductive RunOutcome where
  /-- The run has ended, with this state after its last read. -/
  | ended (s : State)
  /-- An access of the program has no meaning (20_memory.md R46). -/
  | refused (r : Refusal)
  /-- The steps allowed are used up. -/
  | running (s : State)
  deriving DecidableEq, Repr

/-- At most `fuel` steps of a run; `dropped` says whether the last CMD write so far was dropped. -/
def runFrom : Nat → Bool → State → RunOutcome
  | 0, _, s => .running s
  | fuel + 1, dropped, s =>
    match step s with
    | .fault f => nomatch f
    | .refused r => .refused r
    | .next t => if s.endsNext dropped then .ended t else runFrom fuel (s.dropsNext dropped) t

/-- At most `fuel` steps of the run of a program whose host starts at s (R155). -/
def State.runProgram (s : State) (fuel : Nat) (lines : List AsmLine) : RunOutcome :=
  runFrom fuel false (s.withProgram lines)

/-- The end state of the run of a program from reset (R155); none when it takes more than `fuel` steps or is refused. -/
def programEnd (fuel : Nat) (lines : List AsmLine) : Option EndState :=
  match State.reset.runProgram fuel lines with
  | .ended s => some s.endState
  | .refused _ => none
  | .running _ => none

end Sys2Proof.Machine
end

