-- ==== Sys2Proof/Laws/Run.lean ====
section
/-! SUPPORT. Runs: how they end, that more steps change nothing, and what an end state does not see. -/

namespace Sys2Proof.Machine

/-- The environment is no part of an end state (70_reset_and_hazards.md R155). -/
@[simp] theorem State.endState_env (s : State) (e : Env) : { s with env := e : State }.endState = s.endState := rfl

@[simp] theorem State.endState_takeOp (s : State) : s.takeOp.endState = s.endState := rfl

@[simp] theorem State.endState_putBack (s : State) (op : BusOp) : (s.putBack op).endState = s.endState := rfl

/-- A read is no part of an end state (20_memory.md R51). -/
@[simp] theorem State.endState_busRead (s : State) (off : BitVec 16) : (s.busRead off).endState = s.endState := by
  obtain ⟨v, n, h⟩ := State.busRead_env s off
  rw [h, State.endState_env]

/-- A read that is not refused leaves the registers, buffers and grids. -/
theorem busOp_isRead_endState {op : BusOp} {s t : State} (hr : op.isRead = true) (h : busOp op s = .next t) :
    t.endState = s.endState := by
  cases op with
  | read off width =>
    simp only [busOp] at h
    split at h
    · cases h
    · split at h
      · cases h
      · injection h with h; rw [← h, State.endState_busRead]
  | wait =>
    simp only [busOp] at h
    split at h
    · injection h with h; rw [← h, State.endState_putBack, State.endState_busRead]
    · injection h with h; rw [← h, State.endState_busRead]
  | write off width v => cases hr
  | writeLast off => cases hr
  | hwReset => cases hr

/-- What ends a run is a read, and it ends one whose last CMD write was not dropped only with BUSY = 0. -/
theorem endsRun_isRead {dropped busy : Bool} {op : BusOp} {rest : List BusOp}
    (h : endsRun dropped busy op rest = true) : op.isRead = true ∧ (dropped = true ∨ busy = false) := by
  unfold endsRun at h
  split at h
  · rename_i hd
    rw [Bool.and_eq_true] at h
    exact ⟨h.1, .inl hd⟩
  · simp only [Bool.and_eq_true, beq_iff_eq, Bool.not_eq_true'] at h
    obtain ⟨⟨rfl, -⟩, hb⟩ := h
    exact ⟨rfl, .inr hb⟩

/-- The read that ends a run leaves the registers, buffers and grids, and BUSY is 0 unless the last CMD write was
dropped. -/
theorem endState_of_endsNext {s t : State} {dropped : Bool} (h : s.endsNext dropped = true) (hs : step s = .next t) :
    t.endState = s.endState ∧ (dropped = true ∨ t.busy = false) := by
  unfold State.endsNext at h
  split at h
  · cases h
  · rename_i hm
    split at h
    · cases h
    · rename_i op rest hi
      obtain ⟨hr, hd⟩ := endsRun_isRead h
      have ht : busOp op s.takeOp = .next t := by
        rw [← hs]
        unfold step agentStep hostStep
        rw [if_neg hm, hi]
      have he : t.endState = s.endState := by
        rw [busOp_isRead_endState hr ht, State.endState_takeOp]
      exact ⟨he, hd.imp id fun hb => (congrArg EndState.busy he).trans hb⟩

/-- A run that has ended in so many steps ends the same with more. -/
theorem runFrom_ended_add {fuel : Nat} {dropped : Bool} {s t : State} (h : runFrom fuel dropped s = .ended t)
    (k : Nat) : runFrom (fuel + k) dropped s = .ended t := by
  induction fuel generalizing dropped s with
  | zero => cases h
  | succ n ih =>
    rw [Nat.add_right_comm]
    rw [runFrom] at h ⊢
    cases hs : step s with
    | fault f => exact nomatch f
    | refused r => rw [hs] at h; cases h
    | next u =>
      rw [hs] at h
      simp only at h ⊢
      by_cases he : s.endsNext dropped = true
      · rw [if_pos he] at h ⊢
        exact h
      · rw [if_neg he] at h ⊢
        exact ih h

/-- A run ends with a read that endsNext names, so endState_of_endsNext says what it leaves. -/
theorem runFrom_ended {fuel : Nat} {dropped : Bool} {s t : State} (h : runFrom fuel dropped s = .ended t) :
    ∃ (u : State) (d : Bool), u.endsNext d = true ∧ step u = .next t := by
  induction fuel generalizing dropped s with
  | zero => cases h
  | succ n ih =>
    rw [runFrom] at h
    cases hs : step s with
    | fault f => exact nomatch f
    | refused r => rw [hs] at h; cases h
    | next u =>
      rw [hs] at h
      simp only at h
      split at h
      · rename_i he
        injection h with h
        exact ⟨s, dropped, he, by rw [hs, h]⟩
      · exact ih h

end Sys2Proof.Machine
end

