-- ==== Sys2Proof/Tests/Slice0.lean ====
section
/-! SUPPORT. Tests of the model: ill-formed terms, words of the spec's encodings, vectors of 95_test_vectors.md on one
step of a small state, and a witness for the hypotheses of every statement. Expected values are the spec's. -/

namespace Sys2Proof.Tests

open Sys2Proof.Machine

-- One proof at a time: the kernel evaluations below would otherwise run side by side, each on a stack of its own.
set_option Elab.async false

/-! ## Small states -/

/-- Reset, with ARG0 to ARG2 given. -/
def given (a b c : Word) : State := { State.reset with arg0 := a, arg1 := b, arg2 := c }

/-- Reset, with latched operands given. -/
def latched (a b c : Word) : State := { State.reset with latch := ⟨0, a, b, c⟩ }

/-- The state after the step that runs command word w, with ARG0 to ARG2 as they stand. -/
def after (s : State) (w : Nat) : Option State :=
  match step (s.withFetchWord 32 w) with
  | .next t => some t
  | .fault _ => none
  | .refused _ => none

/-- The state after the step in which `op` arrives. -/
def afterOp (s : State) (op : BusOp) : Option State :=
  match step { s with env := { s.env with inbox := [op] } } with
  | .next t => some t
  | .fault _ => none
  | .refused _ => none

/-- The host's turn with `op` about to arrive; `busy` tells whether a command is in flight. -/
def turn (busy : Bool) (op : BusOp) : State :=
  { State.reset with busy := busy, env := { Env.quiet with inbox := [op], hold := 1 } }

/-- Reset, with n light bits in BS[0]. -/
def filled (n : Nat) (s : State) : State := s.setBuf 0 (List.replicate n false)

theorem len_filled (n : Nat) (s : State) : (filled n s).len 0 = n := by
  simp [filled, State.len_setBuf]

/-- The bits of hexadecimal bytes. -/
def hexBits (bs : List Nat) : Bits := bytesBits (bs.map (BitVec.ofNat 8))

/-- A symbol of version v and level M as SYM_INIT leaves it. -/
def initState (v : BitVec 6) : State := { State.reset with phase := .init, sym := initSymRegs v .m }

/-- The same after SYM_FUNCTION; `free` is R96's count. -/
def funcState (v : BitVec 6) (free : BitVec 16) : State :=
  { State.reset with
    phase := .func, sym := { initSymRegs v .m with free := free }, grids := paintFunction Grids.zero v.toNat }

/-- Phase FUNC with BS[0] holding `bits`. -/
def funcWith (v : BitVec 6) (free : BitVec 16) (bits : Bits) : State := (funcState v free).setBuf 0 bits

/-- The same after SYM_PLACE of `bits`. -/
def placedState (v : BitVec 6) (lvl : Level) (bits : Bits) : State :=
  let g := paintFunction Grids.zero v.toNat
  let ks := placeStrokes g.used (innerSide v.toNat) bits
  { State.reset with
    phase := .placed, sym := { initSymRegs v lvl with free := 0 },
    grids := { g with module := g.module.paint ks, used := g.used.paint (allDark ks) } }

/-- The same after SYM_APPLY_MASK of mask m. -/
def maskedState (v : BitVec 6) (lvl : Level) (bits : Bits) (m : MaskIdx) : State :=
  let s := placedState v lvl bits
  { s with grids := { s.grids with out := s.build m }, sym := s.maskedRegs m, phase := .masked }

/-- Reset in another phase, with a version. -/
def inPhase (p : Phase) (v : BitVec 6) : State := { State.reset with phase := p, sym := initSymRegs v .l }

/-- The stream of program P1 (95_test_vectors.md section 3): 19 data and 7 parity codewords. -/
def streamP1 : Bits :=
  hexBits [0x40, 0x13, 0x10, 0xEC, 0x11, 0xEC, 0x11, 0xEC, 0x11, 0xEC, 0x11, 0xEC, 0x11, 0xEC, 0x11, 0xEC, 0x11, 0xEC,
    0x11, 0x93, 0x51, 0x5C, 0xEE, 0x7D, 0xAB, 0xE5]

/-! ## Ill-formed commands -/

/-- The one check of WellFormed refuses a count that does not fit the field N (30_encoding.md R58). -/
theorem test_wellFormed_refuses_wide_count : (Instr.bsAppendBits 0 64).wellFormed = false := by decide

theorem test_wellFormed_allows_63 : (Instr.bsAppendBits 0 63).wellFormed = true := by decide

/-! ## Decoding: words written out from R58 and R62 -/

/-- OP 00. -/
theorem test_decode_nop : decode 0x00000000 = .ok .nop := by decide
/-- OP 01, SD = 10 in bits 9:8. -/
theorem test_decode_bsClear : decode 0x00000201 = .ok (.bsClear 2) := by decide
/-- OP 02, SD = 01, N = 100001 in bits 21:16. -/
theorem test_decode_bsAppendBits : decode 0x00210102 = .ok (.bsAppendBits 1 33) := by decide
/-- OP 03, SD = 11, B = 1 in bit 12. -/
theorem test_decode_bsAppendBools : decode 0x00001303 = .ok (.bsAppendBools 3 true) := by decide
/-- OP 04, SD = 01, SS = 10 in bits 11:10 (BS-10). -/
theorem test_decode_bsAppend : decode 0x00000904 = .ok (.bsAppend 1 2) := by decide
/-- OP 05, SD = 11, SS = 00 (BS-12). -/
theorem test_decode_bsSubstr : decode 0x00000305 = .ok (.bsSubstr 3 0) := by decide
/-- OP 06, SS = 11. -/
theorem test_decode_bsByteAt : decode 0x00000C06 = .ok (.bsByteAt 3) := by decide
/-- OP 10. -/
theorem test_decode_gfMul : decode 0x00000010 = .ok .gfMul := by decide
/-- OP 11. -/
theorem test_decode_gfExp : decode 0x00000011 = .ok .gfExp := by decide
/-- OP 12. -/
theorem test_decode_gfLog : decode 0x00000012 = .ok .gfLog := by decide
/-- OP 13, SD = 10. -/
theorem test_decode_rsGenpoly : decode 0x00000213 = .ok (.rsGenpoly 2) := by decide
/-- OP 14, SD = 01, SS = 00 (RS-1). -/
theorem test_decode_rsEncode : decode 0x00000114 = .ok (.rsEncode 1 0) := by decide
/-- OP 20. -/
theorem test_decode_symInit : decode 0x00000020 = .ok .symInit := by decide
/-- OP 21. -/
theorem test_decode_symFunction : decode 0x00000021 = .ok .symFunction := by decide
/-- OP 22, SS = 10. -/
theorem test_decode_symPlace : decode 0x00000822 = .ok (.symPlace 2) := by decide
/-- OP 23, M = 111 in bits 18:16. -/
theorem test_decode_symApplyMask : decode 0x00070023 = .ok (.symApplyMask 7) := by decide
/-- OP 24. -/
theorem test_decode_symScore : decode 0x00000024 = .ok .symScore := by decide
/-- OP 25. -/
theorem test_decode_symSelectMask : decode 0x00000025 = .ok .symSelectMask := by decide

/-- Vectors CTL-2, CTL-3, CTL-4, CTL-5, SYM-13, BS-20: illegal words, each with its reason. -/
theorem test_decode_illegal :
    decode 0x00000100 = .error .unusedFieldSet ∧ decode 0x00000007 = .error .unknownOpcode ∧
      decode 0x000000FF = .error .unknownOpcode ∧ decode 0x00282002 = .error .unusedFieldSet ∧
      decode 0x00080023 = .error .unusedFieldSet ∧ decode 0x00001001 = .error .unusedFieldSet := by decide

/-- The encoder puts the fields where R58 has them. -/
theorem test_encode :
    encode (.bsAppendBits 1 33) = 0x00210102 ∧ encode (.bsAppendBools 3 true) = 0x00001303 ∧
      encode (.bsSubstr 3 0) = 0x00000305 ∧ encode (.symApplyMask 7) = 0x00070023 := by decide

/-- The opcode table's numbering is the command word's. -/
theorem test_decodeTableWord :
    decodeTableWord 32 0x00000904 = some (.bsAppend 1 2) ∧ decodeTableWord 32 0x00000026 = none := by decide

/-! ## One step of each command: vectors of section 2 -/

/-- CTL-1. -/
theorem test_nop : (after State.reset 0x00000000).map (fun t => (t.statusWord, t.cmd)) = some (0x02, 0) := by
  decide +kernel

/-- BS-19. -/
theorem test_bsClear : (after (filled 5 State.reset) 0x00000001).map (fun t => (t.len 0, t.statusWord)) =
    some (0, 0x02) := by decide +kernel

/-- BS-1. -/
theorem test_bsAppendBits : (after (given 4 0 0) 0x00040002).map (fun t => (t.buf 0, t.statusWord)) =
    some ([false, true, false, false], 0x02) := by decide +kernel

/-- BS-5: N = 33. -/
theorem test_bsAppendBits_operand : (after (given 1 0 0) 0x00210002).map
    (fun t => (t.statusWord, t.errCode, t.errCmd)) = some (0x04, .operand, 0x00210002) := by decide +kernel

/-- BS-6. -/
theorem test_bsAppendBools : (after (given 3 0 0) 0x00001003).map (fun t => t.buf 0) = some [true, true, true] := by
  decide +kernel

/-- BS-7: the count is not reduced modulo anything. -/
theorem test_bsAppendBools_overflow : (after (given 0xFFFFFFFF 0 0) 0x00000003).map (fun t => (t.errCode, t.len 0)) =
    some (.overflow, 0) := by decide +kernel

/-- BS-10. -/
theorem test_bsAppend :
    (after ((State.reset.setBuf 1 [true, false]).setBuf 2 [true, true, true]) 0x00000904).map
      (fun t => (t.buf 1, t.buf 2)) = some ([true, false, true, true, true], [true, true, true]) := by decide +kernel

/-- BS-11: SD = SS. -/
theorem test_bsAppend_self : (after (State.reset.setBuf 1 [true, false, true]) 0x00000504).map (fun t => t.buf 1) =
    some [true, false, true, true, false, true] := by decide +kernel

/-- BS-12: the low byte of 0x401 is bits 4 to 11. -/
theorem test_bsSubstr :
    (after ((given 4 12 0).setBuf 0 (bitsMsbFirst 12 (0x401 : Word))) 0x00000305).map (fun t => t.buf 3) =
      some [false, false, false, false, false, false, false, true] := by decide +kernel

/-- BS-14: lo > hi. -/
theorem test_bsSubstr_bounds :
    (after ((given 5 4 0).setBuf 0 (bitsMsbFirst 12 (0x401 : Word))) 0x00000305).map (fun t => t.errCode) =
      some .bounds := by decide +kernel

/-- BS-17. -/
theorem test_bsByteAt : (after ((given 1 0 0).setBuf 0 (hexBits [0x40, 0x13, 0x10])) 0x00000006).map
    (fun t => t.result) = some 0x13 := by decide +kernel

/-- BS-18: byte 1 is partial. -/
theorem test_bsByteAt_bounds :
    (after ((given 1 0 0).setBuf 0 (bitsMsbFirst 12 (0x401 : Word))) 0x00000006).map
      (fun t => (t.errCode, t.result)) = some (.bounds, 0) := by decide +kernel

/-- GF-3. -/
theorem test_gfMul : (after (given 0x53 0xCA 0) 0x00000010).map (fun t => t.result) = some 0x8F := by decide +kernel

/-- GF-6. -/
theorem test_gfMul_operand : (after (given 0x100 1 0) 0x00000010).map (fun t => t.errCode) = some .operand := by
  decide +kernel

/-- GF-9. -/
theorem test_gfExp : (after (given 254 0 0) 0x00000011).map (fun t => t.result) = some 0x8E := by decide +kernel

/-- GF-11: the table goes on past its period, up to 511. -/
theorem test_gfExp_511 : (after (given 511 0 0) 0x00000011).map (fun t => t.result) = some 0x02 := by decide +kernel

/-- GF-15. -/
theorem test_gfLog : (after (given 0xFF 0 0) 0x00000012).map (fun t => t.result) = some 175 := by decide +kernel

/-- GF-17: 0 has no logarithm. -/
theorem test_gfLog_zero : (after State.reset 0x00000012).map (fun t => t.errCode) = some .operand := by decide +kernel

/-- RS-G7. -/
theorem test_rsGenpoly : (after (given 7 0 0) 0x00000013).map (fun t => t.buf 0) =
    some (hexBits [0x01, 0x7F, 0x7A, 0x9A, 0xA4, 0x0B, 0x44, 0x75]) := by decide +kernel

/-- RS-1. -/
theorem test_rsEncode :
    (after ((given 0 16 10).setBuf 0 (hexBits [0x20, 0x5B, 0x0B, 0x78, 0xD1, 0x72, 0xDC, 0x4D, 0x43, 0x40, 0xEC, 0x11,
      0xEC, 0x11, 0xEC, 0x11])) 0x00000114).map (fun t => t.buf 1) =
      some (hexBits [0xC4, 0x23, 0x27, 0x77, 0xEB, 0xD7, 0xE7, 0xE2, 0x5D, 0x17]) := by decide +kernel

/-- RS-6: RS_LENGTH is reported before BOUNDS. -/
theorem test_rsEncode_length : (after (given 0 200 56) 0x00000114).map (fun t => t.errCode) = some .rsLength := by
  decide +kernel

/-- SYM-5. -/
theorem test_symInit : (after (given 40 3 0) 0x00000020).map
    (fun t => (t.sym.inner, t.sym.size, t.sym.free, t.sym.fpTR.word, t.sym.fpBL.word, t.statusWord)) =
      some (177, 185, 31329, 0x04AE, 0xAE04, 0x12) := by decide +kernel

/-- SYM-3. -/
theorem test_symInit_operand : (after (given 41 0 0) 0x00000020).map (fun t => t.errCode) = some .operand := by
  decide +kernel

/-- SYM-6, and two rows of the V = 1 MODULE window of section 2.4. -/
theorem test_symFunction : (after (initState 1) 0x00000021).map
    (fun t => (t.sym.free, t.statusWord, t.grids.module.windowWord 10 0, t.grids.module.windowWord 17 0)) =
      some (208, 0x22, 0x01FD57F0, 0x00001000) := by decide +kernel

/-- SYM-1. -/
theorem test_symFunction_sequence : (after State.reset 0x00000021).map (fun t => t.statusWord) = some 0x04 := by
  decide +kernel

/-- SYM-10, and the place of bit 24 by PL-1: inner (18, 9), X = 22, Y = 13. -/
theorem test_symPlace :
    (after (funcWith 1 208 (List.replicate 24 false ++ [true] ++ List.replicate 183 false)) 0x00000022).map
      (fun t => (t.statusWord, t.sym.free, t.grids.used.windowWord 24 0, t.grids.module.windowWord 13 0)) =
      some (0x32, 0, 0x01FFFFF0, 0x00400000) := by decide +kernel

/-- SYM-8. -/
theorem test_symPlace_length : (after (funcWith 1 208 (List.replicate 209 false)) 0x00000022).map
    (fun t => (t.errCode, t.statusWord)) = some (.placeLength, 0x24) := by decide +kernel

/-- SYM-15. -/
theorem test_symApplyMask : (after (placedState 7 .l (List.replicate 1568 false)) 0x00030023).map
    (fun t => (t.sym.verWord, t.sym.fmtWord, t.statusWord)) = some (0x07C94, 0x789D, 0x42) := by decide +kernel

/-- SYM-12. -/
theorem test_symApplyMask_sequence : (after (funcState 1 208) 0x00000023).map (fun t => t.errCode) =
    some .sequence := by decide +kernel

/-- PEN-6: the all-light 21 × 21 grid. -/
theorem test_symScore : (after (inPhase .masked 1) 0x00000024).map
    (fun t => (t.pen.n1, t.pen.n2, t.pen.n3, t.pen.n4, t.pen.total)) = some (798, 1200, 0, 100, 2098) := by
  decide +kernel

/-- SYM-11. -/
theorem test_symScore_sequence : (after (inPhase .placed 1) 0x00000024).map (fun t => t.errCode) =
    some .sequence := by decide +kernel

/-- PEN-7 and program P1: the eight penalties, mask 7, FMT-1. -/
theorem test_symSelectMask : (after (placedState 1 .l streamP1) 0x00000025).map
    (fun t => (t.pen.perMask.toList, t.sym.mask, t.pen.total, t.sym.fmtWord)) =
      some ([348, 452, 548, 358, 418, 561, 468, 316], 7, 316, 0x6976) := by decide +kernel

/-! ## One host access -/

/-- CTL-9. -/
theorem test_status_w1c :
    (afterOp { State.reset with done := true, err := true, drop := true } (.write 0x008 .w32 0x4)).map
      (fun t => t.statusWord) = some 0x0A := by decide +kernel

/-- CTL-6: with ERR = 1 a CMD write is dropped. -/
theorem test_cmd_dropped : (afterOp { State.reset with err := true } (.write 0x018 .w32 0x11)).map
    (fun t => (t.statusWord, t.cmd)) = some (0x0C, 0) := by decide +kernel

/-- CTL-8: a soft reset in a busy state. -/
theorem test_soft_reset :
    (afterOp { (initState 3) with busy := true, env := { Env.quiet with hold := 1 } } (.write 0x004 .w32 1)).map
      (fun t => (t.statusWord, t.sym.version)) = some (0, 0) := by decide +kernel

/-- MEM-1, MEM-2, MEM-3. -/
theorem test_reads :
    (afterOp State.reset (.read 0x088 .w32)).map (fun t => t.env.lastRead) = some 0 ∧
      (afterOp State.reset (.read 0x000 .w32)).map (fun t => t.env.lastRead) = some 0x51525342 ∧
      (afterOp State.reset (.read 0x054 .w32)).map (fun t => t.env.lastRead) = some 4 := by decide +kernel

/-- SYM-10: a USED window row read by the host. -/
theorem test_window_read :
    (afterOp (placedState 1 .m (List.replicate 208 false)) (.read 0x8080 .w32)).map (fun t => t.env.lastRead) =
      some 0x01FFFFF0 := by decide +kernel

/-- R46: a byte read, a 64-bit write and a misaligned read are refused. -/
theorem test_refused :
    step (turn false (.read 0x008 .w8)) = .refused (.accessWidth .w8) ∧
      step (turn false (.write 0x018 .w64 0)) = .refused (.accessWidth .w64) ∧
      step (turn true (.read 0x00A .w32)) = .refused (.misaligned 0x00A) := ⟨rfl, rfl, rfl⟩

/-- IRQ-1, IRQ-3. -/
theorem test_irq :
    { State.reset with done := true, intEn := IntEn.ofWord 0x2 : State }.irq = true ∧
      { State.reset with err := true, intEn := IntEn.ofWord 0x8 : State }.irq = false := by decide +kernel

/-- R65: `bs.bits s0, 4, 0x4` is an ARG0 write, a wait and a CMD write (P1 line 2). -/
theorem test_assembly : (AsmLine.bsBits 0 4 4).expand = [.write 0x01C .w32 4, .wait, .write 0x018 .w32 0x00040002] := by
  decide +kernel

/-! ## Runs and host procedures -/

/-- CTL-6 in short: a CMD write dropped because of ERR, then the final wait; the end state says DROP = 1 and CMD as it
was. -/
theorem test_run_dropped_err :
    (match runFrom 3 false { State.reset with
        err := true, env := { Env.quiet with inbox := [.write 0x018 .w32 0x11, .wait] } } with
      | .ended s => some (s.endState.drop, s.endState.cmd, s.endState.grids)
      | .refused _ => none
      | .running _ => none) = some (true, 0, none) := by decide +kernel

/-- R155: a program whose last CMD write was dropped at BUSY = 1 ends at the first read after it, though BUSY is 1. -/
theorem test_run_dropped_busy :
    (match runFrom 2 false { (State.reset.withCommand 0x10) with
        env := { Env.quiet with hold := 9, inbox := [.write 0x018 .w32 0x11, .wait] } } with
      | .ended s => some (s.endState.drop, s.endState.busy, s.endState.cmd)
      | .refused _ => none
      | .running _ => none) = some (true, true, 0x10) := by decide +kernel

/-- R155: after `nop` was dropped because of ERR, `rd ERRCODE; ack` and the final wait no longer count: the run ends at
the first read, with STATUS = 0x0C as in CTL-6. -/
theorem test_run_dropped_ends_at_first_read :
    (match runFrom 2 false { State.reset with
        err := true, errCode := .operand,
        env := { Env.quiet with
          inbox := [.write 0x018 .w32 0, .wait, .read 0x010 .w32, .write 0x008 .w32 0xE, .wait] } } with
      | .ended s => some s.statusWord
      | .refused _ => none
      | .running _ => none) = some 0x0C := by decide +kernel

/-- R155: a dropped CMD write that is not the last does not end the run. -/
theorem test_run_goes_on_to_last_command :
    State.endsNext { State.reset with
      err := true, env := { Env.quiet with inbox := [.wait, .write 0x018 .w32 0, .wait] } } true = false := by
  decide +kernel

/-- R155 with GF-11: the run of `gf.exp 511` from reset ends with RESULT = 2. -/
theorem test_run_end : (programEnd 6 [.gfExp 511]).map (fun e => (e.result, e.done, e.busy)) =
    some (0x02, true, false) := by decide +kernel

/-- HOST-1: "1" in Byte mode, bucket B1, is 20 bits. -/
theorem test_segment_byte : segmentFields .byte .b1 [0x31] = .ok [⟨4, 4⟩, ⟨8, 1⟩, ⟨8, 0x31⟩] := rfl

/-- R121: 512 characters do not fit the 9-bit count of alphanumeric mode in B1. -/
theorem test_segment_too_long :
    (match segmentFields .alphanumeric .b1 (List.replicate 512 0x41) with
      | .ok _ => none
      | .error e => some e) = some .contentTooLong := by decide +kernel

/-- R127 step 4 stands between the padding and the blocks: P1's plan reads BS_LEN0 once. -/
theorem test_formatter_reads_length :
    ((formatterLines 1 .l 20).filter (· == .rd (.bsLen 0))).length = 1 ∧
      ({ version := 1, level := .l, lines := [] : HostPlan }.lengthAsserted [(0x030, 152)]) = true := by decide +kernel

/-- R129 step 5: a block error is reported with ERRCODE and the version. -/
theorem test_hostReport_error :
    (match hostReport { version := 5, level := .l, lines := [] } { State.reset with err := true, errCode := .placeLength }
      with
      | .ok _ => none
      | .error e => some e) = some (.internalInvariant .placeLength 5) := by decide +kernel

/-! ## Witnesses: a state and operands that meet the hypotheses of each statement -/

theorem test_witness_DecodeOfEncode : (Instr.bsAppendBits 3 63).wellFormed = true ∧
    (Instr.symApplyMask 7).wellFormed = true := by decide

/-- The greatest word of BS_APPEND_BITS; the clause on words that decode. -/
theorem test_witness_CommandWordsAreTheLegalWords : decode 0x003F0302 = .ok (.bsAppendBits 3 63) := by decide

/-- The engine is next because nothing is held back, and because the host sends nothing more. -/
theorem test_witness_StepRunsLatchedCommand :
    (∃ s : State, s.busy = true ∧ s.env.hold = 0 ∧ s.env.inbox ≠ [] ∧ decode s.latch.word = .ok (.bsClear 2)) ∧
      ∃ s : State, s.busy = true ∧ s.env.hold ≠ 0 ∧ s.env.inbox = [] ∧ decode s.latch.word = .ok .symSelectMask :=
  ⟨⟨{ (State.reset.withCommand 0x00000201) with env := { Env.quiet with inbox := [.wait] } }, by decide⟩,
    ⟨{ (State.reset.withCommand 0x00000025) with env := { Env.quiet with hold := 3 } }, by decide⟩⟩

/-- An unknown opcode, and a bit outside the mask field (SYM-13). -/
theorem test_witness_StepEndsIllegalWord :
    (∃ s : State, s.busy = true ∧ s.env.hold = 0 ∧ ¬ LegalWord s.latch.word) ∧
      ∃ s : State, s.busy = true ∧ s.env.inbox = [] ∧ ¬ LegalWord s.latch.word :=
  ⟨⟨State.reset.withCommand 0x00000007, by decide⟩, ⟨State.reset.withCommand 0x00080023, by decide⟩⟩

/-- Also of FamiliesKeepEachOthersState and RunningCommandIgnoresArgWrites: each command answers a next state. -/
theorem test_witness_CommandsKeepHostRegisters :
    [Instr.nop, .bsClear 0, .bsAppendBits 0 1, .bsAppendBools 0 true, .bsAppend 0 1, .bsSubstr 0 1, .bsByteAt 0, .gfMul,
      .gfExp, .gfLog, .rsGenpoly 0, .rsEncode 0 1, .symInit, .symFunction, .symPlace 0, .symApplyMask 0, .symScore,
      .symSelectMask].all (fun i => (after (given 1 0 0) (encode i).toNat).isSome) = true := by decide +kernel

theorem test_witness_FamiliesKeepEachOthersState : ∃ t, exec .gfMul (latched 2 0x80 0) = .next t := ⟨_, rfl⟩

theorem test_witness_RunningCommandIgnoresArgWrites : ∃ t, exec .symInit (latched 40 3 0) = .next t := ⟨_, rfl⟩

theorem test_witness_AcceptedCommandEnds :
    ∃ s : State, s.busy = true ∧ s.env.inbox ≠ [] ∧ ∀ op ∈ s.env.inbox, op.defined = true :=
  ⟨{ (State.reset.withCommand 0x00000010) with
      env := { Env.quiet with hold := 2, inbox := [.write 0x01C .w32 7, .wait, .hwReset] } }, by decide⟩

/-- N = 32 into the last 32 free bits, and N = 0 into a full buffer (BS-9). -/
theorem test_witness_BsAppendBitsAppendsMsbFirst :
    (∃ s : State, 32 ≤ 32 ∧ s.len 0 + 32 ≤ 32768 ∧ s.len 0 = 32736) ∧ ∃ s : State, s.len 0 + 0 ≤ 32768 ∧ s.len 0 = 32768 :=
  ⟨⟨filled 32736 State.reset, by rw [len_filled]; omega⟩, ⟨filled 32768 State.reset, by rw [len_filled]; omega⟩⟩

theorem test_witness_BsAppendBoolsAppendsCopies :
    ∃ s : State, s.len 0 + s.latch.arg0.toNat ≤ 32768 ∧ s.latch.arg0.toNat = 32768 := ⟨latched 32768 0 0, by decide⟩

/-- Two buffers, and SD = SS doubled to the capacity. -/
theorem test_witness_BsAppendConcatenates :
    (∃ s : State, s.len 1 + s.len 0 ≤ 32768 ∧ s.len 0 = 32768) ∧ ∃ s : State, s.len 0 + s.len 0 = 32768 :=
  ⟨⟨filled 32768 State.reset, by rw [len_filled]; exact ⟨Nat.le_refl _, rfl⟩⟩,
    ⟨filled 16384 State.reset, by rw [len_filled]⟩⟩

/-- The whole buffer, and the empty slice at its end (BS-13). -/
theorem test_witness_BsSubstrTakesSlice :
    (∃ s : State, s.latch.arg0.toNat ≤ s.latch.arg1.toNat ∧ s.latch.arg1.toNat ≤ s.len 0 ∧ s.latch.arg0.toNat = 0 ∧
      s.latch.arg1.toNat = 12) ∧
      ∃ s : State, s.latch.arg0.toNat = s.latch.arg1.toNat ∧ s.latch.arg1.toNat = s.len 0 :=
  ⟨⟨filled 12 (latched 0 12 0), by decide⟩, ⟨filled 12 (latched 12 12 0), by decide⟩⟩

/-- The last byte of a buffer. -/
theorem test_witness_BsByteAtReadsByte : ∃ s : State, 8 * s.latch.arg0.toNat + 8 = s.len 0 ∧ s.latch.arg0.toNat = 2 :=
  ⟨filled 24 (latched 2 0 0), by decide⟩

/-- Each clause at its bound: N = 33; one bit too many; 32769 copies; lo > hi and hi > LEN; a partial byte. -/
theorem test_witness_BitstreamErrors :
    32 < 33 ∧ (∃ s : State, 32768 < s.len 0 + 1 ∧ s.len 0 = 32768) ∧
      (∃ s : State, 32768 < s.len 0 + s.latch.arg0.toNat ∧ s.latch.arg0.toNat = 32769) ∧
      (∃ s : State, 32768 < s.len 0 + s.len 0) ∧
      (∃ s : State, s.latch.arg1.toNat < s.latch.arg0.toNat ∧ s.latch.arg0.toNat ≤ s.len 0) ∧
      (∃ s : State, s.latch.arg0.toNat ≤ s.latch.arg1.toNat ∧ s.len 0 < s.latch.arg1.toNat) ∧
      ∃ s : State, s.len 0 < 8 * s.latch.arg0.toNat + 8 ∧ s.len 0 = 8 * s.latch.arg0.toNat + 7 :=
  ⟨by decide, ⟨filled 32768 State.reset, by rw [len_filled]; omega⟩, ⟨latched 32769 0 0, by decide⟩,
    ⟨filled 32768 State.reset, by rw [len_filled]; omega⟩, ⟨filled 12 (latched 5 4 0), by decide⟩,
    ⟨filled 12 (latched 0 13 0), by decide⟩, ⟨filled 15 (latched 1 0 0), by decide⟩⟩

theorem test_witness_FieldLaws : ∃ a : Byte, a ≠ 0 := ⟨1, by decide⟩

/-- Bytes at their bound, and a zero operand (GF-2, GF-4). -/
theorem test_witness_GfMulLeavesProduct :
    (∃ (s : State) (a b : Byte), s.latch.arg0.toNat = a.toNat ∧ s.latch.arg1.toNat = b.toNat ∧ a = 255 ∧ b = 255) ∧
      ∃ (s : State) (a b : Byte), s.latch.arg0.toNat = a.toNat ∧ s.latch.arg1.toNat = b.toNat ∧ a = 0 :=
  ⟨⟨latched 255 255 0, 255, 255, by decide⟩, ⟨latched 0 0xB7 0, 0, 0xB7, by decide⟩⟩

/-- The ends of each range, and the laws of the table at their last index. -/
theorem test_witness_GfExpAndGfLogLeaveEntries :
    (∃ s : State, s.latch.arg0.toNat ≤ 511 ∧ s.latch.arg0.toNat = 511) ∧
      (∃ s : State, 1 ≤ s.latch.arg0.toNat ∧ s.latch.arg0.toNat ≤ 255 ∧ s.latch.arg0.toNat = 255) ∧
      (∃ i, i < 254 ∧ i = 253) ∧ (∃ i, 255 ≤ i ∧ i ≤ 511 ∧ i = 511) ∧ gfExp 254 = gfExp 254 :=
  ⟨⟨latched 511 0 0, by decide⟩, ⟨latched 255 0 0, by decide⟩, ⟨253, by decide⟩, ⟨511, by decide⟩, rfl⟩

/-- Each clause at its bound, in the order of the statement (GF-6, GF-12, GF-17, GF-18, RS-G256, RS-GOVF, RS-6, RS-7). -/
theorem test_witness_FieldAndRsErrors :
    (∃ s : State, 255 < s.latch.arg0.toNat ∧ s.latch.arg0.toNat = 256) ∧
      (∃ s : State, s.latch.arg0.toNat ≤ 255 ∧ 255 < s.latch.arg1.toNat) ∧
      (∃ s : State, 511 < s.latch.arg0.toNat ∧ s.latch.arg0.toNat = 512) ∧ (∃ s : State, s.latch.arg0 = 0) ∧
      (∃ s : State, s.latch.arg0.toNat ≤ 255 ∧ 32768 < s.len 0 + 8 * (s.latch.arg0.toNat + 1)) ∧
      (∃ s : State, 255 < s.latch.arg1.toNat + s.latch.arg2.toNat ∧
        s.latch.arg1.toNat + s.latch.arg2.toNat = 256) ∧
      (∃ s : State, s.latch.arg1.toNat + s.latch.arg2.toNat ≤ 255 ∧
        s.len 0 < 8 * (s.latch.arg0.toNat + s.latch.arg1.toNat)) ∧
      ∃ s : State, s.latch.arg1.toNat + s.latch.arg2.toNat ≤ 255 ∧
        8 * (s.latch.arg0.toNat + s.latch.arg1.toNat) ≤ s.len 0 ∧ 32768 < s.len 0 + 8 * s.latch.arg2.toNat :=
  ⟨⟨latched 256 0 0, by decide⟩, ⟨latched 0 256 0, by decide⟩, ⟨latched 512 0 0, by decide⟩,
    ⟨latched 0 0 0, by decide⟩, ⟨filled 32760 (latched 1 0 0), by rw [len_filled]; decide⟩,
    ⟨latched 0 200 56, by decide⟩, ⟨filled 8 (latched 0 200 55), by decide⟩,
    ⟨filled 32768 (latched 0 254 1), by rw [len_filled]; decide⟩⟩

/-- t = 255 into exactly the room it needs, and t = 0 (RS-G0). -/
theorem test_witness_RsGenpolyAppendsMonicWithRoots :
    (∃ s : State, s.latch.arg0.toNat ≤ 255 ∧ s.len 0 + 8 * (s.latch.arg0.toNat + 1) ≤ 32768 ∧
      s.len 0 = 30720 ∧ s.latch.arg0.toNat = 255) ∧
      ∃ s : State, s.latch.arg0.toNat = 0 ∧ s.len 0 + 8 * (s.latch.arg0.toNat + 1) ≤ 32768 :=
  ⟨⟨filled 30720 (latched 255 0 0), by rw [len_filled]; decide⟩, ⟨latched 0 0 0, by decide⟩⟩

/-- k + t = 255 with the data at the end of the buffer; and SD = SS with the last room used. -/
theorem test_witness_RsEncodeMakesCodeword :
    (∃ s : State, s.latch.arg1.toNat + s.latch.arg2.toNat = 255 ∧
      8 * (s.latch.arg0.toNat + s.latch.arg1.toNat) = s.len 0 ∧ s.len 1 + 8 * s.latch.arg2.toNat ≤ 32768) ∧
      ∃ s : State, s.latch.arg1.toNat + s.latch.arg2.toNat ≤ 255 ∧
        8 * (s.latch.arg0.toNat + s.latch.arg1.toNat) ≤ s.len 0 ∧ s.len 0 + 8 * s.latch.arg2.toNat = 32768 :=
  ⟨⟨filled 1600 (latched 1 199 56), by decide +kernel⟩, ⟨filled 32688 (latched 0 1 10), by rw [len_filled]; decide⟩⟩

/-- V = 1 with level 0 and V = 40 with level 3. -/
theorem test_witness_SymInitAllocates :
    (∃ s : State, 1 ≤ s.latch.arg0.toNat ∧ s.latch.arg0.toNat ≤ 40 ∧ s.latch.arg1.toNat ≤ 3 ∧ s.latch.arg0.toNat = 1) ∧
      ∃ s : State, 1 ≤ s.latch.arg0.toNat ∧ s.latch.arg0.toNat ≤ 40 ∧ s.latch.arg1.toNat ≤ 3 ∧
        s.latch.arg0.toNat = 40 ∧ s.latch.arg1.toNat = 3 :=
  ⟨⟨latched 1 0 0, by decide⟩, ⟨latched 40 3 0, by decide⟩⟩

/-- Also of SymFunctionMarksFunctionModules and SymFunctionFreeCounts. V = 1 and V = 40. -/
theorem test_witness_SymFunctionPaintsPatterns :
    ∀ v ∈ [(1 : BitVec 6), 40], (initState v).phase = .init ∧ (initState v).grids = Grids.zero ∧
      1 ≤ (initState v).versionNat ∧ (initState v).versionNat ≤ 40 := by decide +kernel

theorem test_witness_SymFunctionMarksFunctionModules :
    (initState 2).phase = .init ∧ (initState 2).grids = Grids.zero ∧ 1 ≤ (initState 2).versionNat ∧
      (initState 2).versionNat ≤ 40 := by decide +kernel

theorem test_witness_SymFunctionFreeCounts :
    (initState 7).phase = .init ∧ (initState 7).grids = Grids.zero ∧ 1 ≤ (initState 7).versionNat ∧
      (initState 7).versionNat ≤ 40 := by decide +kernel

/-- V = 1; a position that is visited, one of column 6 that is not, the last row of the last pair; the pair after the
skipped column is columns 5 and 4, going down. -/
theorem test_witness_ZigzagVisitsEachPositionOnce :
    1 ≤ 1 ∧ (20, 20) ∈ zigzag (innerSide 1) ∧ (6, 0) ∉ zigzag (innerSide 1) ∧ 20 < innerSide 1 ∧
      9 < (innerSide 1 - 1) / 2 ∧ pairColumn (innerSide 1) 6 = 8 ∧ pairColumn (innerSide 1) 7 = 5 ∧
      pairColumn (innerSide 1) 9 = 1 ∧ pairRow (innerSide 1) 7 0 = 0 := by decide +kernel

/-- V = 1 with 208 bits; the first free position is (20, 20) and a module outside the order is (6, 0), X = 10, Y = 4. -/
theorem test_witness_SymPlaceFillsFreeModules :
    ∃ s : State, s.phase = .func ∧ s.len 0 = s.sym.free.toNat ∧ 1 ≤ s.versionNat ∧ s.versionNat ≤ 40 ∧
      ((zigzag s.side).filter fun p => !s.grids.used.readInner p.1 p.2)[0]? = some (20, 20) ∧ 0 < s.len 0 ∧
      (∀ p ∈ (zigzag s.side).filter fun p => !s.grids.used.readInner p.1 p.2, (10, 4) ≠ (p.1 + 4, p.2 + 4)) :=
  ⟨funcWith 1 208 (List.replicate 208 false), by decide +kernel⟩

/-- Each clause: version 0 and 41, level 4; each command in a phase that does not allow it; 209 bits for 208. -/
theorem test_witness_SymbolErrors :
    (∃ s : State, s.latch.arg0.toNat < 1) ∧ (∃ s : State, 40 < s.latch.arg0.toNat ∧ s.latch.arg0.toNat = 41) ∧
      (∃ s : State, 1 ≤ s.latch.arg0.toNat ∧ s.latch.arg0.toNat ≤ 40 ∧ 3 < s.latch.arg1.toNat) ∧
      (∃ s : State, s.phase ≠ .init ∧ s.phase = .func) ∧ (∃ s : State, s.phase ≠ .func ∧ s.phase = .init) ∧
      (∃ s : State, s.phase = .func ∧ s.len 0 ≠ s.sym.free.toNat ∧ s.len 0 = 209 ∧ s.sym.free.toNat = 208) ∧
      (∃ s : State, s.phase ∈ [Phase.empty, .init, .func] ∧ s.phase = .func) ∧
      ∃ s : State, s.phase ∈ [Phase.empty, .init, .func, .placed] ∧ s.phase = .placed :=
  ⟨⟨latched 0 0 0, by decide⟩, ⟨latched 41 0 0, by decide⟩, ⟨latched 1 4 0, by decide⟩, ⟨inPhase .func 1, by decide⟩,
    ⟨inPhase .init 1, by decide⟩, ⟨funcWith 1 208 (List.replicate 209 false), by decide +kernel⟩,
    ⟨inPhase .func 1, by decide⟩, ⟨inPhase .placed 1, by decide⟩⟩

/-- One phase change of each kind. -/
theorem test_witness_PhaseTransitions :
    (∃ t, exec .symInit (latched 1 0 0) = .next t ∧ t.phase ≠ Phase.empty) ∧
      (∃ t, exec .symFunction (inPhase .init 1) = .next t ∧ t.phase ≠ Phase.init) ∧
      (∃ t, exec (.symPlace 0) { (inPhase .func 1) with sym := SymRegs.reset } = .next t ∧ t.phase ≠ Phase.func) ∧
      (∃ t, exec (.symApplyMask 7) (inPhase .placed 1) = .next t ∧ t.phase ≠ Phase.placed) ∧
      ∃ t, exec .symSelectMask (inPhase .placed 1) = .next t ∧ t.phase ≠ Phase.placed :=
  ⟨⟨_, rfl, by decide⟩, ⟨_, rfl, by decide⟩, ⟨_, rfl, by decide⟩, ⟨_, rfl, by decide⟩, ⟨_, rfl, by decide⟩⟩

/-- The three phases, at V = 1 and V = 40. Also of FormatAndVersionWordsAreCodewords, SymSelectMaskChoosesLeast,
SelectEqualsApplyThenScore and MasksStartFromModule. -/
theorem test_witness_SymApplyMaskBuildsOut :
    ∀ p ∈ [Phase.placed, .masked, .final], ∀ v ∈ [(1 : BitVec 6), 40],
      (inPhase p v).phase ∈ [Phase.placed, .masked, .final] ∧ 1 ≤ (inPhase p v).versionNat ∧
        (inPhase p v).versionNat ≤ 40 := by decide +kernel

/-- V = 6 has no version information, V = 7 has. -/
theorem test_witness_FormatAndVersionWordsAreCodewords :
    (inPhase .placed 7).phase ∈ [Phase.placed, .masked, .final] ∧ 7 ≤ (inPhase .placed 7).versionNat ∧
      (inPhase .final 6).phase ∈ [Phase.placed, .masked, .final] ∧ (inPhase .final 6).versionNat < 7 := by decide +kernel

/-- Also of ScoreCountsBlocksAndBalance, ScoreCountsPatterns and SymScoreTotalDoesNotWrap. -/
theorem test_witness_ScoreCountsRuns :
    ∀ p ∈ [Phase.masked, .final], ∀ v ∈ [(1 : BitVec 6), 40],
      (inPhase p v).phase ∈ [Phase.masked, .final] ∧ 1 ≤ (inPhase p v).versionNat ∧ (inPhase p v).versionNat ≤ 40 := by
  decide +kernel

theorem test_witness_ScoreCountsBlocksAndBalance : (inPhase .masked 1).phase ∈ [Phase.masked, .final] := by decide

theorem test_witness_ScoreCountsPatterns : (inPhase .final 1).phase ∈ [Phase.masked, .final] := by decide

theorem test_witness_SymScoreTotalDoesNotWrap :
    (inPhase .final 40).phase ∈ [Phase.masked, .final] ∧ 1 ≤ (inPhase .final 40).versionNat ∧
      (inPhase .final 40).versionNat ≤ 40 := by decide +kernel

theorem test_witness_SymSelectMaskChoosesLeast :
    (inPhase .placed 1).phase ∈ [Phase.placed, .masked, .final] := by decide

theorem test_witness_SelectEqualsApplyThenScore :
    (inPhase .masked 1).phase ∈ [Phase.placed, .masked, .final] := by decide

theorem test_witness_MasksStartFromModule :
    (inPhase .final 1).phase ∈ [Phase.placed, .masked, .final] := by decide

/-! ### Host accesses -/

/-- Idle without an error (accepted), busy (dropped), idle with ERR = 1 (dropped). -/
theorem test_witness_CommandAcceptance :
    HostTurn (turn false (.write 0x018 .w32 0x11)) (.write 0x018 .w32 0x11) [] ∧
      (turn false (.write 0x018 .w32 0x11)).err = false ∧
      HostTurn (turn true (.write 0x018 .w32 0x11)) (.write 0x018 .w32 0x11) [] ∧
      HostTurn { (turn false (.write 0x018 .w32 0x11)) with err := true } (.write 0x018 .w32 0x11) [] := by
  decide +kernel

theorem test_witness_StatusWriteClears :
    HostTurn (turn false (.write 0x008 .w32 0xE)) (.write 0x008 .w32 0xE) [] ∧
      HostTurn (turn true (.write 0x008 .w32 0xFFFFFFF1)) (.write 0x008 .w32 0xFFFFFFF1) [] := by decide +kernel

/-- A soft reset while BUSY = 1, a CTRL write that does nothing, a reset pulse. -/
theorem test_witness_ResetInAnyState :
    HostTurn (turn true (.write 0x004 .w32 1)) (.write 0x004 .w32 1) [] ∧
      HostTurn (turn false (.write 0x004 .w32 0xFFFFFFFE)) (.write 0x004 .w32 0xFFFFFFFE) [] ∧
      HostTurn (turn true .hwReset) .hwReset [] ∧ 0x0BC ∈ registerOffsets ∧ 0x2000 ≤ (0xDFFF : BitVec 16).toNat ∧
      (0xDFFF : BitVec 16).toNat < 0xE000 := by decide +kernel

theorem test_witness_ArgAndIntEnWrites :
    [(0x01C : BitVec 16), 0x020, 0x024, 0x00C].all (fun off => decide
      (HostTurn (turn true (.write off .w32 0xFFFFFFFF)) (.write off .w32 0xFFFFFFFF) [])) = true := by decide +kernel

/-- A read-only register, the last window word, a reserved offset at the top of the aperture. -/
theorem test_witness_OtherWritesIgnored :
    [(0x02C : BitVec 16), 0xDFFC, 0xFFFC].all (fun off => decide (off.toNat % 4 = 0 ∧ off.toNat ∉ writableOffsets ∧
      HostTurn (turn false (.write off .w32 1)) (.write off .w32 1) [])) = true := by decide +kernel

/-- A register, a window word, and reserved offsets at the bounds. -/
theorem test_witness_ReadsHaveNoSideEffects :
    [(0x0BC : BitVec 16), 0x2000, 0xFFFC].all (fun off => decide (off.toNat % 4 = 0 ∧
      HostTurn (turn true (.read off .w32)) (.read off .w32) [])) = true ∧
      [(0x028 : BitVec 16), 0x0C0, 0x1FFC, 0xE000, 0xFFFC].all (fun off => decide (ReservedOffset off)) = true := by
  decide +kernel

theorem test_witness_StatusReadLayout :
    HostTurn (turn true (.read 0x008 .w32)) (.read 0x008 .w32) [] := by decide +kernel

/-- The last word of the last row of the last window. -/
theorem test_witness_WindowReadsGrid :
    ∃ s : State, (0xC000, s.grids.lastAlign) ∈ windowBases s.grids ∧ 255 < 256 ∧ 7 < 8 ∧ s.busy = false ∧
      s.phase ≠ .empty ∧ HostTurn s (.read (BitVec.ofNat 16 (0xC000 + 32 * 255 + 4 * 7)) .w32) [] :=
  ⟨{ (turn false (.read 0xDFFC .w32)) with phase := .init }, by decide +kernel⟩

/-- registerReads names every register of R14, in order. -/
theorem registerReads_offsets (s : State) : (registerReads s).map Prod.fst = registerOffsets := rfl

/-- The eight exact registers, INT_EN with two enables; and a register, SYM_BORDER and a window word that read any
value. -/
theorem test_witness_ReadsWhileBusy :
    [((0x000 : BitVec 16), 0x51525342), (0x004, 0), (0x008, 0x01), (0x00C, 0x0A), (0x018, 0), (0x01C, 0), (0x020, 0),
      (0x024, 0)].all (fun (off, n) => decide
        (let s := { turn true (.read off .w32) with intEn := ⟨true, false, true⟩ }
        off.toNat % 4 = 0 ∧ s.busy = true ∧ HostTurn s (.read off .w32) [] ∧ off.toNat ∈ exactOffsets ∧
          (off.toNat, n) ∈ registerReads s)) = true ∧
    [(0x02C : BitVec 16), 0x054, 0xDFFC].all (fun off => decide (off.toNat % 4 = 0 ∧
      (turn true (.read off .w32)).busy = true ∧ HostTurn (turn true (.read off .w32)) (.read off .w32) [] ∧
      ¬ ReservedOffset off ∧ off.toNat ∉ exactOffsets)) = true := by decide +kernel

/-- Registers of a V = 40 symbol of level M, FP_TR and FP_BL among them (SYM-5), each about to be read. -/
theorem test_witness_ResultRegistersRead :
    [((0x000 : BitVec 16), 0x51525342), (0x008, 0x10), (0x03C, 0), (0x040, 40), (0x044, 1), (0x04C, 177), (0x050, 185),
      (0x054, 4), (0x058, 31329), (0x05C, 0x0404), (0x060, 0x04AE), (0x064, 0xAE04), (0x0BC, 0)].all
      (fun (off, n) => decide
        (let s := { initState 40 with env := { Env.quiet with inbox := [.read off .w32] } }
        s.busy = false ∧ (off.toNat, n) ∈ registerReads s ∧ (off.toNat ∈ [0x030, 0x034, 0x038, 0x03C] → n ≤ 32768) ∧
          HostTurn s (.read off .w32) [])) = true := by decide +kernel

theorem registerReads_bsLen0 (s : State) : (0x030, s.len 0) ∈ registerReads s := by simp [registerReads]

theorem filled_reads_length (n : Nat) (s : State) (rest : List BusOp) (hb : s.busy = false)
    (hs : HostTurn s (.read 0x030 .w32) rest) :
    (filled n s).busy = false ∧ (0x030, n) ∈ registerReads (filled n s) ∧
      HostTurn (filled n s) (.read 0x030 .w32) rest :=
  ⟨hb, by have h := registerReads_bsLen0 (filled n s); rwa [len_filled] at h, hs⟩

/-- BS_LEN0 of a full buffer (BS-8). -/
theorem test_witness_ResultRegistersRead_full :
    ∃ s : State, s.busy = false ∧ (0x030, 32768) ∈ registerReads s ∧ HostTurn s (.read 0x030 .w32) [] :=
  ⟨_, filled_reads_length 32768 (turn false (.read 0x030 .w32)) [] rfl ⟨.inl rfl, rfl⟩⟩

theorem test_witness_InterruptIsALevel :
    HostTurn (turn false (.write 0x008 .w32 0xE)) (.write 0x008 .w32 0x0000000E) [] ∧
      HostTurn (turn true (.write 0x00C .w32 0)) (.write 0x00C .w32 0x00000000) [] := by decide +kernel

/-- Each undefined width, and each misalignment. -/
theorem test_witness_SubwordAndMisalignedRefused :
    ∀ op ∈ [BusOp.read 0x008 .w8, .read 0x008 .w16, .write 0x008 .w64 0, .read 0x009 .w32, .write 0x00A .w32 0,
      .writeLast 0x00B], op.defined = false ∧ HostTurn (turn true op) op [] := by decide +kernel

/-! ### Invariants -/

theorem capacity_reset : CapacityOK State.reset := by decide +kernel

theorem test_witness_StepKeepsCapacity : ∃ t, CapacityOK State.reset ∧ step State.reset = .next t :=
  ⟨_, capacity_reset, rfl⟩

/-- An idle state and one with a command in flight. -/
theorem test_witness_StepKeepsEngine :
    (∃ t, EngineOK State.reset ∧ step State.reset = .next t) ∧
      ∃ t, EngineOK (State.reset.withCommand 0x10) ∧ step (State.reset.withCommand 0x10) = .next t :=
  ⟨⟨_, by decide +kernel, rfl⟩, ⟨_, by decide +kernel, rfl⟩⟩

/-- Every phase of a V = 1 symbol meets the register invariants. -/
theorem test_witness_StepKeepsRegisters :
    ∀ s ∈ [State.reset, initState 1, funcState 1 208, placedState 1 .l streamP1, maskedState 1 .l streamP1 7],
      ResultIsByte s ∧ GeometryOK s ∧ MaskRegsOK s := by decide +kernel

/-- What SYM_FUNCTION and SYM_PLACE write at V = 1 lies in the inner part. -/
theorem strokes_one_inner :
    (∀ k ∈ functionStrokes 1, k.x < 21 ∧ k.y < 21) ∧ (∀ k ∈ allDark (functionStrokes 1), k.x < 21 ∧ k.y < 21) ∧
      (∀ k ∈ placeStrokes (paintFunction Grids.zero 1).used 21 streamP1, k.x < 21 ∧ k.y < 21) ∧
      ∀ k ∈ allDark (placeStrokes (paintFunction Grids.zero 1).used 21 streamP1), k.x < 21 ∧ k.y < 21 := by
  decide +kernel

theorem placed_one_usedQuiet : QuietLight (placedState 1 .l streamP1).grids.used 21 := by
  have e : (placedState 1 .l streamP1).grids.used = (Grid.zero.paint (allDark (functionStrokes 1))).paint
      (allDark (placeStrokes (paintFunction Grids.zero 1).used 21 streamP1)) := by decide +kernel
  rw [e]
  exact quietLight_paint (quietLight_paint (quietLight_zero _) strokes_one_inner.2.1) strokes_one_inner.2.2.2

theorem placed_one_moduleQuiet : QuietLight (placedState 1 .l streamP1).grids.module 21 := by
  have e : (placedState 1 .l streamP1).grids.module = (Grid.zero.paint (functionStrokes 1)).paint
      (placeStrokes (paintFunction Grids.zero 1).used 21 streamP1) := by decide +kernel
  rw [e]
  exact quietLight_paint (quietLight_paint (quietLight_zero _) strokes_one_inner.1) strokes_one_inner.2.2.1

/-- A V = 1 symbol with data in place meets the grid invariant of R26 and R100. -/
theorem placed_one_grids : PlacedGrids (placedState 1 .l streamP1) where
  func := by decide +kernel
  finder := by decide +kernel
  lastAlign := by decide +kernel
  used := by
    have h : ∀ x < 21, ∀ y < 21, (placedState 1 .l streamP1).grids.used.readInner x y = true := by decide +kernel
    exact fun x y hx hy => h x hx y hy
  usedQuiet := placed_one_usedQuiet
  moduleQuiet := placed_one_moduleQuiet
  fixed := by
    have h : ∀ x < 21, ∀ y < 21, (placedState 1 .l streamP1).grids.func.readInner x y = true →
        (placedState 1 .l streamP1).grids.module.readInner x y =
          (paintFunction Grids.zero (placedState 1 .l streamP1).versionNat).module.readInner x y := by decide +kernel
    exact fun x y hx hy => h x hx y hy
  free := by decide +kernel
  out := by decide +kernel

/-- The same with a mask applied. -/
theorem masked_one_grids : PlacedGrids (maskedState 1 .l streamP1 7) where
  func := by decide +kernel
  finder := by decide +kernel
  lastAlign := by decide +kernel
  used := by
    have h : ∀ x < 21, ∀ y < 21, (maskedState 1 .l streamP1 7).grids.used.readInner x y = true := by decide +kernel
    exact fun x y hx hy => h x hx y hy
  usedQuiet := by
    have e : (maskedState 1 .l streamP1 7).grids.used = (placedState 1 .l streamP1).grids.used := by decide +kernel
    have e' : (maskedState 1 .l streamP1 7).side = 21 := by decide +kernel
    rw [e, e']
    exact placed_one_usedQuiet
  moduleQuiet := by
    have e : (maskedState 1 .l streamP1 7).grids.module = (placedState 1 .l streamP1).grids.module := by decide +kernel
    have e' : (maskedState 1 .l streamP1 7).side = 21 := by decide +kernel
    rw [e, e']
    exact placed_one_moduleQuiet
  fixed := by
    have h : ∀ x < 21, ∀ y < 21, (maskedState 1 .l streamP1 7).grids.func.readInner x y = true →
        (maskedState 1 .l streamP1 7).grids.module.readInner x y =
          (paintFunction Grids.zero (maskedState 1 .l streamP1 7).versionNat).module.readInner x y := by decide +kernel
    exact fun x y hx hy => h x hx y hy
  free := by decide +kernel
  out := by decide +kernel

/-- The phases of a V = 1 symbol meet the invariants that StepKeepsGrids assumes, and step answers. -/
theorem test_witness_StepKeepsGrids :
    (GeometryOK (initState 1) ∧ MaskRegsOK (initState 1) ∧ GridsOK (initState 1)) ∧
      (GeometryOK (funcState 1 208) ∧ MaskRegsOK (funcState 1 208) ∧ GridsOK (funcState 1 208)) ∧
      (GeometryOK (placedState 1 .l streamP1) ∧ MaskRegsOK (placedState 1 .l streamP1) ∧
        GridsOK (placedState 1 .l streamP1)) ∧
      (GeometryOK (maskedState 1 .l streamP1 7) ∧ MaskRegsOK (maskedState 1 .l streamP1 7) ∧
        GridsOK (maskedState 1 .l streamP1 7)) ∧ ∃ t, step (initState 1) = .next t :=
  ⟨⟨by decide +kernel, by decide +kernel, rfl, by decide +kernel⟩,
    ⟨by decide +kernel, by decide +kernel, rfl, by decide +kernel⟩,
    ⟨by decide +kernel, by decide +kernel, placed_one_grids⟩,
    ⟨by decide +kernel, by decide +kernel, masked_one_grids⟩, ⟨_, rfl⟩⟩

/-- From phase FUNC on, and with a mask applied. -/
theorem test_witness_DarkModuleAlwaysDark :
    (GeometryOK (funcState 1 208) ∧ GridsOK (funcState 1 208) ∧
      (funcState 1 208).phase ∈ [Phase.func, .placed, .masked, .final]) ∧
      GeometryOK (maskedState 1 .l streamP1 7) ∧ GridsOK (maskedState 1 .l streamP1 7) ∧
        (maskedState 1 .l streamP1 7).phase ∈ [Phase.masked, .final] :=
  ⟨⟨by decide +kernel, ⟨rfl, by decide +kernel⟩, by decide +kernel⟩, by decide +kernel, masked_one_grids,
    by decide +kernel⟩

/-- A CMD write that is dropped leaves the record. -/
theorem test_witness_ErrorRecordIsKept :
    ∃ s t : State, EngineOK s ∧ s.err = true ∧ step s = .next t ∧ t.err = true :=
  ⟨{ (turn false (.write 0x018 .w32 0x11)) with err := true, errCode := .operand }, _, by decide +kernel, rfl, rfl, rfl⟩

/-- An idle step, and SYM_INIT, which writes the grids. -/
theorem test_witness_UnspecifiedGridsUnobservable :
    (∃ t, State.reset.phase = .empty ∧ step State.reset = .next t) ∧
      ∃ t, ((given 1 0 0).withCommand 0x20).phase = .empty ∧ step ((given 1 0 0).withCommand 0x20) = .next t :=
  ⟨⟨_, rfl, rfl⟩, ⟨_, rfl, rfl⟩⟩

end Sys2Proof.Tests
end

/-! ## What a command can do -/

namespace Sys2Proof.Machine

/-- Symbol state written: PHASE, symbol and penalty registers, grids. -/
def State.setSymbol (s : State) (p : Phase) (y : SymRegs) (n : PenRegs) (g : Grids) : State :=
  { s with phase := p, sym := y, pen := n, grids := g }

@[simp] theorem State.setSymbol_phase (s : State) (p : Phase) (y : SymRegs) (n : PenRegs) (g : Grids) :
    (s.setSymbol p y n g).phase = p := rfl
@[simp] theorem State.setSymbol_sym (s : State) (p : Phase) (y : SymRegs) (n : PenRegs) (g : Grids) :
    (s.setSymbol p y n g).sym = y := rfl
@[simp] theorem State.setSymbol_grids (s : State) (p : Phase) (y : SymRegs) (n : PenRegs) (g : Grids) :
    (s.setSymbol p y n g).grids = g := rfl

/-- The command writes `b` to BS[sd], and the room it needs was checked (41_bitstream.md R69 to R75, 42_gf_rs.md R87,
R88). -/
inductive BufferWrite (s : State) : Instr → BufIdx → Bits → Prop where
  | bsClear (sd) : BufferWrite s (.bsClear sd) sd []
  | bsAppendBits (sd n) (room : s.fits sd n = true) :
      BufferWrite s (.bsAppendBits sd n) sd (s.buf sd ++ bitsMsbFirst n s.latch.arg0)
  | bsAppendBools (sd b) (room : s.fits sd s.op0 = true) :
      BufferWrite s (.bsAppendBools sd b) sd (s.buf sd ++ List.replicate s.op0 b)
  | bsAppend (sd ss) (room : s.fits sd (s.len ss) = true) :
      BufferWrite s (.bsAppend sd ss) sd (s.buf sd ++ s.buf ss)
  | bsSubstr (sd ss) (inside : s.op1 ≤ s.len ss) :
      BufferWrite s (.bsSubstr sd ss) sd (slice (s.buf ss) s.op0 s.op1)
  | rsGenpoly (sd) (room : s.fits sd (8 * (s.op0 + 1)) = true) :
      BufferWrite s (.rsGenpoly sd) sd (s.buf sd ++ bytesBits (genPoly s.op0))
  | rsEncode (sd ss) (room : s.fits sd (8 * s.op2) = true) :
      BufferWrite s (.rsEncode sd ss) sd
        (s.buf sd ++ bytesBits (parity (codewordsAt (s.buf ss) s.op0 s.op1) s.op2))

/-- The command writes `v` to RESULT (10_state.md R23). -/
inductive ResultWrite (s : State) : Instr → Word → Prop where
  | bsByteAt (ss) : ResultWrite s (.bsByteAt ss) ((byteAt (s.buf ss) s.op0).setWidth 32)
  | gfMul (a b : Byte) : ResultWrite s .gfMul ((gfMul a b).setWidth 32)
  | gfExp : ResultWrite s .gfExp ((gfExp s.op0).setWidth 32)
  | gfLog (a : Byte) : ResultWrite s .gfLog (BitVec.ofNat 32 (gfLog a))

/-- The command writes symbol state, in a phase that allows it (43_symbol.md R97 to R100, 44_mask.md R114 to R116). -/
inductive SymbolWrite (s : State) : Instr → Phase → SymRegs → PenRegs → Grids → Prop where
  | symInit (v : BitVec 6) (lvl : Level) (version : versionOperand s.latch.arg0 = some v)
      (level : levelOperand s.latch.arg1 = some lvl) :
      SymbolWrite s .symInit .init (initSymRegs v lvl) PenRegs.zero Grids.zero
  | symFunction (phase : s.phase = .init) :
      SymbolWrite s .symFunction .func
        { s.sym with free := BitVec.ofNat 16 ((paintFunction s.grids s.versionNat).used.countInner s.side false) }
        s.pen (paintFunction s.grids s.versionNat)
  | symPlace (ss) (phase : s.phase = .func) (length : s.len ss = s.sym.free.toNat) :
      SymbolWrite s (.symPlace ss) .placed { s.sym with free := 0 } s.pen
        { s.grids with
          module := s.grids.module.paint (placeStrokes s.grids.used s.side (s.buf ss)),
          used := s.grids.used.paint (allDark (placeStrokes s.grids.used s.side (s.buf ss))) }
  | symApplyMask (m) (phase : s.phase.allowsMask = true) :
      SymbolWrite s (.symApplyMask m) .masked (s.maskedRegs m) s.pen { s.grids with out := s.build m }
  | symScore (phase : s.phase.allowsScore = true) :
      SymbolWrite s .symScore s.phase s.sym (s.pen.setScore (scoreGrid s.grids.out s.side)) s.grids
  | symSelectMask (best) (n : PenRegs) (phase : s.phase.allowsMask = true) :
      SymbolWrite s .symSelectMask .final (s.maskedRegs best) n { s.grids with out := s.build best }

/-- The two ends of a command (60_exceptions.md R135, R136), with what it wrote before `done`. -/
inductive CommandEnd (s : State) (i : Instr) : State → Prop where
  | error (code : ErrCode) : CommandEnd s i (errorState s code)
  | nop (instr : i = .nop) : CommandEnd s i s.complete
  | buffer {sd b} (write : BufferWrite s i sd b) : CommandEnd s i (s.setBuf sd b).complete
  | result {v} (write : ResultWrite s i v) : CommandEnd s i (s.setResult v).complete
  | symbol {p y n g} (write : SymbolWrite s i p y n g) : CommandEnd s i (s.setSymbol p y n g).complete

/-- A checked command ends with the check's error or goes on with the check passed. -/
theorem commandEnd_check {s t : State} {i : Instr} {code : ErrCode} {c : Prop} [Decidable c]
    {o : Host.Outcome State Fault Refusal} (h : (if c then s.fail code else o) = .next t)
    (go : ¬ c → o = .next t → CommandEnd s i t) : CommandEnd s i t := by
  by_cases hc : c
  · rw [if_pos hc, State.fail_eq_next] at h
    exact h ▸ .error code
  · rw [if_neg hc] at h
    exact go hc h

theorem commandEnd_fail {s t : State} {i : Instr} {code : ErrCode} (h : s.fail code = .next t) :
    CommandEnd s i t :=
  State.fail_eq_next.mp h ▸ .error code

theorem commandEnd_buffer {s t : State} {i : Instr} {sd : BufIdx} {b : Bits} (w : BufferWrite s i sd b)
    (h : (s.setBuf sd b).finish = .next t) : CommandEnd s i t :=
  State.finish_eq_next.mp h ▸ .buffer w

theorem commandEnd_result {s t : State} {i : Instr} {v : Word} (w : ResultWrite s i v)
    (h : (s.setResult v).finish = .next t) : CommandEnd s i t :=
  State.finish_eq_next.mp h ▸ .result w

theorem commandEnd_symbol {s t : State} {i : Instr} {p : Phase} {y : SymRegs} {n : PenRegs} {g : Grids}
    (w : SymbolWrite s i p y n g) (h : (s.setSymbol p y n g).finish = .next t) : CommandEnd s i t :=
  State.finish_eq_next.mp h ▸ .symbol w

/-- Everything a command can do, one arm per command. -/
theorem exec_commandEnd {i : Instr} {s t : State} (h : exec i s = .next t) : CommandEnd s i t := by
  cases i with
  | nop => exact State.finish_eq_next.mp h ▸ .nop rfl
  | bsClear sd => exact commandEnd_buffer (.bsClear sd) h
  | bsAppendBits sd n =>
    refine commandEnd_check h fun _ h => commandEnd_check h fun room h => ?_
    exact commandEnd_buffer (.bsAppendBits sd n (by simpa using room)) h
  | bsAppendBools sd b =>
    exact commandEnd_check h fun room h => commandEnd_buffer (.bsAppendBools sd b (by simpa using room)) h
  | bsAppend sd ss =>
    exact commandEnd_check h fun room h => commandEnd_buffer (.bsAppend sd ss (by simpa using room)) h
  | bsSubstr sd ss =>
    simp only [exec, execBsSubstr] at h
    split at h
    · next inside => exact commandEnd_buffer (.bsSubstr sd ss inside.2) h
    · exact commandEnd_fail h
  | bsByteAt ss => exact commandEnd_check h fun _ h => commandEnd_result (.bsByteAt ss) h
  | gfMul =>
    simp only [exec, execGfMul] at h
    split at h
    · exact commandEnd_result (.gfMul _ _) h
    · exact commandEnd_fail h
  | gfExp => exact commandEnd_check h fun _ h => commandEnd_result .gfExp h
  | gfLog =>
    simp only [exec, execGfLog] at h
    split at h
    · exact commandEnd_check h fun _ h => commandEnd_result (.gfLog _) h
    · exact commandEnd_fail h
  | rsGenpoly sd =>
    refine commandEnd_check h fun _ h => commandEnd_check h fun room h => ?_
    exact commandEnd_buffer (.rsGenpoly sd (by simpa using room)) h
  | rsEncode sd ss =>
    refine commandEnd_check h fun _ h => commandEnd_check h fun _ h => commandEnd_check h fun room h => ?_
    exact commandEnd_buffer (.rsEncode sd ss (by simpa using room)) h
  | symInit =>
    simp only [exec, execSymInit] at h
    split at h
    · next v lvl hv hl => exact commandEnd_symbol (.symInit v lvl hv hl) h
    · exact commandEnd_fail h
  | symFunction =>
    exact commandEnd_check h fun phase h => commandEnd_symbol (.symFunction (not_not.mp phase)) h
  | symPlace ss =>
    refine commandEnd_check h fun phase h => commandEnd_check h fun len h => ?_
    exact commandEnd_symbol (.symPlace ss (not_not.mp phase) (not_not.mp len)) h
  | symApplyMask m =>
    exact commandEnd_check h fun phase h => commandEnd_symbol (.symApplyMask m (by simpa using phase)) h
  | symScore =>
    exact commandEnd_check h fun phase h => commandEnd_symbol (.symScore (by simpa using phase)) h
  | symSelectMask =>
    exact commandEnd_check h fun phase h => commandEnd_symbol (.symSelectMask _ _ (by simpa using phase)) h

/-! ## What a step can do to the data of the block -/

/-- Buffers, RESULT and symbol state as before. -/
structure DataKept (s t : State) : Prop where
  bufs : BufsKept s t
  result : t.result = s.result
  symbol : SymbolKept s t

theorem dataKept_of_eq {s t : State} (hb : t.bufs = s.bufs) (hr : t.result = s.result) (hp : t.phase = s.phase)
    (hy : t.sym = s.sym) (hn : t.pen = s.pen) (hg : t.grids = s.grids) : DataKept s t :=
  ⟨fun j => congrArg (fun v : Vector Bits 4 => v[j]) hb, hr, hp, hy, hn, hg⟩

theorem dataKept_errorState (s : State) (code : ErrCode) : DataKept s (errorState s code) :=
  dataKept_of_eq rfl rfl rfl rfl rfl rfl

theorem dataKept_complete (s : State) : DataKept s s.complete := dataKept_of_eq rfl rfl rfl rfl rfl rfl

theorem dataKept_busRead (s : State) (off : BitVec 16) : DataKept s (s.busRead off) := by
  obtain ⟨v, n, e⟩ := State.busRead_env s off
  rw [e]
  exact dataKept_of_eq rfl rfl rfl rfl rfl rfl

/-- A write of the host resets the block or leaves its data (20_memory.md R51). -/
theorem busWrite_data (s : State) (off : BitVec 16) (v : Word) :
    s.busWrite off v = s.resetBlock ∨ DataKept s (s.busWrite off v) := by
  rcases State.busWrite_cases s off v with e | e | e | e | ⟨j, e⟩ | e
  · exact .inl e
  · exact .inr (e ▸ dataKept_of_eq rfl rfl rfl rfl rfl rfl)
  · exact .inr (e ▸ dataKept_of_eq rfl rfl rfl rfl rfl rfl)
  · rcases State.issue_cases s v with ⟨_, _, e'⟩ | ⟨_, e'⟩ <;>
      exact .inr (e ▸ e' ▸ dataKept_of_eq rfl rfl rfl rfl rfl rfl)
  · exact .inr (e ▸ dataKept_of_eq (by simp) (by simp) (by simp) (by simp) (by simp) (by simp))
  · exact .inr (e.symm ▸ dataKept_of_eq rfl rfl rfl rfl rfl rfl)

/-- An operation that arrives resets the block or leaves its data. -/
theorem busOp_data {op : BusOp} {s t : State} (h : busOp op s = .next t) : t = s.resetBlock ∨ DataKept s t := by
  rcases busOp_cases h with ⟨off, rfl⟩ | ⟨off, v, rfl⟩ | ⟨-, rfl⟩ | rfl
  · exact .inr (dataKept_busRead s off)
  · exact busWrite_data s off v
  · obtain ⟨bufs, result, phase, sym, pen, grids⟩ := dataKept_busRead s statusOffset
    exact .inr ⟨bufs, result, phase, sym, pen, grids⟩
  · exact .inl rfl

/-- A step ends a command, resets the block, or leaves its data. -/
theorem step_data {s t : State} (h : step s = .next t) :
    (∃ i, CommandEnd s i t) ∨ (∃ e, t = { State.reset with env := e }) ∨ DataKept s t := by
  rcases step_cases h with ⟨-, -, he⟩ | ⟨-, -, rfl⟩ | ⟨-, op, rest, -, ho⟩
  · rcases engineStep_cases s with ⟨i, -, hi⟩ | ⟨_, -, hi⟩
    · exact .inl ⟨i, exec_commandEnd (hi ▸ he)⟩
    · rw [hi] at he
      injection he with he
      exact .inr (.inr (he ▸ dataKept_errorState s .illegal))
  · exact .inr (.inr (dataKept_of_eq rfl rfl rfl rfl rfl rfl))
  · rcases busOp_data ho with rfl | hk
    · exact .inr (.inl ⟨_, rfl⟩)
    · obtain ⟨bufs, result, phase, sym, pen, grids⟩ := hk
      exact .inr (.inr ⟨bufs, result, phase, sym, pen, grids⟩)

/-- The induction step of every invariant of the block's data: it holds at reset, and each write of a command keeps
it. -/
theorem step_keeps {P : State → Prop} (frame : ∀ {s t}, DataKept s t → P s → P t) (reset : P State.reset)
    (buffer : ∀ {s i sd b}, BufferWrite s i sd b → P s → P (s.setBuf sd b))
    (result : ∀ {s i v}, ResultWrite s i v → P s → P (s.setResult v))
    (symbol : ∀ {s i p y n g}, SymbolWrite s i p y n g → P s → P (s.setSymbol p y n g))
    {s t : State} (hs : P s) (h : step s = .next t) : P t := by
  rcases step_data h with ⟨i, hi⟩ | ⟨e, rfl⟩ | hk
  · cases hi with
    | error code => exact frame (dataKept_errorState s code) hs
    | nop => exact frame (dataKept_complete s) hs
    | buffer w => exact frame (dataKept_complete _) (buffer w hs)
    | result w => exact frame (dataKept_complete _) (result w hs)
    | symbol w => exact frame (dataKept_complete _) (symbol w hs)
  · exact frame (s := State.reset) (dataKept_of_eq rfl rfl rfl rfl rfl rfl) reset
  · exact frame hk hs

/-! ## Capacity (10_state.md R24, 41_bitstream.md R69) -/

theorem length_append_le_of_fits {s : State} {sd : BufIdx} {b : Bits} {n : Nat} (room : s.fits sd n = true)
    (hn : b.length = n) : (s.buf sd ++ b).length ≤ Config.bsCap := by
  rw [State.fits_iff, State.len] at room
  rw [List.length_append, hn]
  exact room

/-- Every command checks the room before it writes a buffer. -/
theorem BufferWrite.length_le {s : State} {i : Instr} {sd : BufIdx} {b : Bits} (w : BufferWrite s i sd b)
    (hs : CapacityOK s) : b.length ≤ Config.bsCap := by
  cases w with
  | bsClear => exact Nat.zero_le _
  | bsAppendBits _ n room => exact length_append_le_of_fits room (bitsMsbFirst_length _ _)
  | bsAppendBools _ _ room => exact length_append_le_of_fits room List.length_replicate
  | bsAppend _ ss room => exact length_append_le_of_fits room rfl
  | bsSubstr _ ss inside =>
    rw [slice_length _ _ _ inside]
    exact (Nat.sub_le _ _).trans (inside.trans (hs ss))
  | rsGenpoly _ room => exact length_append_le_of_fits room (by simp)
  | rsEncode _ ss room => exact length_append_le_of_fits room (by simp)

theorem capacityOK_setBuf {s : State} {sd : BufIdx} {b : Bits} (hs : CapacityOK s) (hb : b.length ≤ Config.bsCap) :
    CapacityOK (s.setBuf sd b) := by
  intro j
  rw [State.len_setBuf]
  split
  · exact hb
  · exact hs j

theorem capacityOK_reset : CapacityOK State.reset := by decide

/-- Settles O53: only buffer writes change a length, and each checks the room first. -/
theorem stepKeepsCapacity : Obligations.StepKeepsCapacity := by
  unfold Obligations.StepKeepsCapacity
  intro s t hs h
  refine step_keeps (P := CapacityOK) ?frame capacityOK_reset ?buffer ?result ?symbol hs h
  case frame =>
    intro s t hk hs j
    rw [State.len, hk.bufs j]
    exact hs j
  case buffer => exact fun w hs => capacityOK_setBuf hs (w.length_le hs)
  case result => exact fun _ hs => hs
  case symbol => exact fun _ hs => hs

end Sys2Proof.Machine

/-! ## Registers (10_state.md R23, R27 to R39) -/

namespace Sys2Proof.Machine

/-! ### RESULT -/

theorem toNat_setWidth_byte_lt (b : Byte) : (b.setWidth 32 : Word).toNat < 256 := by
  rw [BitVec.toNat_setWidth]
  exact (Nat.mod_le _ _).trans_lt b.isLt

theorem gfLog_le (a : Byte) : gfLog a ≤ 255 := by
  have h : expTable.length = 255 := List.length_iterate _ _ _
  exact h ▸ List.idxOf_le_length

theorem ResultWrite.toNat_lt {s : State} {i : Instr} {v : Word} (w : ResultWrite s i v) : v.toNat < 256 := by
  cases w with
  | bsByteAt => exact toNat_setWidth_byte_lt _
  | gfMul => exact toNat_setWidth_byte_lt _
  | gfExp => exact toNat_setWidth_byte_lt _
  | gfLog a =>
    rw [BitVec.toNat_ofNat]
    exact (Nat.mod_le _ _).trans_lt (Nat.lt_succ_of_le (gfLog_le a))

/-! ### Geometry -/

/-- The geometry of a symbol of version 1 to 40 (R28 to R35). -/
structure SymGeometry (y : SymRegs) : Prop where
  version_pos : 1 ≤ y.version.toNat
  version_le : y.version.toNat ≤ 40
  inner : y.inner.toNat = 17 + 4 * y.version.toNat
  size : y.size.toNat = 25 + 4 * y.version.toNat
  fpTL : y.fpTL = ⟨4, 4⟩
  fpTR_x : y.fpTR.x.toNat = 14 + 4 * y.version.toNat
  fpTR_y : y.fpTR.y = 4
  fpBL_x : y.fpBL.x = 4
  fpBL_y : y.fpBL.y.toNat = 14 + 4 * y.version.toNat

theorem geometryOK_iff {s : State} (hp : s.phase ≠ .empty) : GeometryOK s ↔ SymGeometry s.sym := by
  unfold GeometryOK
  rw [if_neg hp]
  exact ⟨fun ⟨h1, h2, h3, h4, h5, h6, h7, h8, h9⟩ => ⟨h1, h2, h3, h4, h5, h6, h7, h8, h9⟩,
    fun ⟨h1, h2, h3, h4, h5, h6, h7, h8, h9⟩ => ⟨h1, h2, h3, h4, h5, h6, h7, h8, h9⟩⟩

/-- The geometry speaks of version, sides and finder corners only. -/
theorem SymGeometry.of_eq {y z : SymRegs} (h : SymGeometry y) (hv : z.version = y.version) (hi : z.inner = y.inner)
    (hs : z.size = y.size) (hl : z.fpTL = y.fpTL) (hr : z.fpTR = y.fpTR) (hb : z.fpBL = y.fpBL) : SymGeometry z := by
  obtain ⟨h1, h2, h3, h4, h5, h6, h7, h8, h9⟩ := h
  constructor <;> simp only [hv, hi, hs, hl, hr, hb] <;> assumption

theorem symGeometry_initSymRegs {v : BitVec 6} (lvl : Level) (h1 : 1 ≤ v.toNat) (h40 : v.toNat ≤ 40) :
    SymGeometry (initSymRegs v lvl) := by
  constructor <;> simp only [initSymRegs, innerSide, BitVec.toNat_ofNat] <;> omega

theorem Phase.ne_empty_of_allowsMask {p : Phase} (h : p.allowsMask = true) : p ≠ .empty := by
  rintro rfl; cases h

theorem Phase.ne_empty_of_allowsScore {p : Phase} (h : p.allowsScore = true) : p ≠ .empty := by
  rintro rfl; cases h

/-- A symbol write leaves a symbol allocated, with its geometry. -/
theorem SymbolWrite.geometry {s : State} {i : Instr} {p : Phase} {y : SymRegs} {n : PenRegs} {g : Grids}
    (w : SymbolWrite s i p y n g) (hs : GeometryOK s) : p ≠ .empty ∧ SymGeometry y := by
  cases w with
  | symInit v lvl version level =>
    obtain ⟨h1, h40, hv⟩ := versionOperand_eq_some.mp version
    exact ⟨by decide, symGeometry_initSymRegs lvl (by omega) (by omega)⟩
  | symFunction phase =>
    have hy := (geometryOK_iff (by rw [phase]; decide)).mp hs
    exact ⟨by decide, hy.of_eq rfl rfl rfl rfl rfl rfl⟩
  | symPlace ss phase length =>
    have hy := (geometryOK_iff (by rw [phase]; decide)).mp hs
    exact ⟨by decide, hy.of_eq rfl rfl rfl rfl rfl rfl⟩
  | symApplyMask m phase =>
    have hy := (geometryOK_iff (Phase.ne_empty_of_allowsMask phase)).mp hs
    exact ⟨by decide, hy.of_eq rfl rfl rfl rfl rfl rfl⟩
  | symScore phase =>
    have hp := Phase.ne_empty_of_allowsScore phase
    exact ⟨hp, (geometryOK_iff hp).mp hs⟩
  | symSelectMask best n phase =>
    have hy := (geometryOK_iff (Phase.ne_empty_of_allowsMask phase)).mp hs
    exact ⟨by decide, hy.of_eq rfl rfl rfl rfl rfl rfl⟩

theorem SymbolWrite.geometryOK {s : State} {i : Instr} {p : Phase} {y : SymRegs} {n : PenRegs} {g : Grids}
    (w : SymbolWrite s i p y n g) (hs : GeometryOK s) : GeometryOK (s.setSymbol p y n g) :=
  (geometryOK_iff (w.geometry hs).1).mpr (w.geometry hs).2

theorem geometryOK_of_symbolKept {s t : State} (hk : SymbolKept s t) (hs : GeometryOK s) : GeometryOK t := by
  unfold GeometryOK State.versionNat
  rw [hk.phase, hk.sym, hk.pen]
  exact hs

/-! ### Mask registers -/

/-- What the mask registers hold in a phase (R30, R36, R37). -/
abbrev MaskRegsAgree (p : Phase) (y : SymRegs) : Prop :=
  if p.allowsScore then
    y.fmtWord = formatWord y.level y.mask.toFin ∧ y.verWord = versionWord y.version.toNat
  else y.mask = 0 ∧ y.fmtWord = 0 ∧ y.verWord = 0

theorem maskRegsOK_iff (s : State) : MaskRegsOK s ↔ MaskRegsAgree s.phase s.sym := Iff.rfl

@[simp] theorem toFin_ofNat_maskIdx (m : MaskIdx) : (BitVec.ofNat 3 m.val).toFin = m := by
  revert m; decide

theorem maskRegsAgree_maskedRegs {p : Phase} (hp : p.allowsScore = true) (s : State) (m : MaskIdx) :
    MaskRegsAgree p (s.maskedRegs m) := by
  unfold MaskRegsAgree
  rw [if_pos hp]
  exact ⟨congrArg (formatWord s.sym.level) (toFin_ofNat_maskIdx m).symm, rfl⟩

/-- A symbol write leaves the registers of the mask it applied, or those of no mask before any. -/
theorem SymbolWrite.maskRegsOK {s : State} {i : Instr} {p : Phase} {y : SymRegs} {n : PenRegs} {g : Grids}
    (w : SymbolWrite s i p y n g) (hs : MaskRegsOK s) : MaskRegsOK (s.setSymbol p y n g) := by
  rw [maskRegsOK_iff] at hs ⊢
  cases w with
  | symInit => exact ⟨rfl, rfl, rfl⟩
  | symFunction phase => rw [phase] at hs; exact hs
  | symPlace _ phase _ => rw [phase] at hs; exact hs
  | symApplyMask m => exact maskRegsAgree_maskedRegs rfl s m
  | symScore => exact hs
  | symSelectMask best => exact maskRegsAgree_maskedRegs rfl s best

theorem maskRegsOK_of_symbolKept {s t : State} (hk : SymbolKept s t) (hs : MaskRegsOK s) : MaskRegsOK t := by
  rw [maskRegsOK_iff, hk.phase, hk.sym]
  exact hs

/-- Settles O55: RESULT writes are bytes, and each symbol write leaves the geometry and mask registers of its phase. -/
theorem stepKeepsRegisters : Obligations.StepKeepsRegisters := by
  unfold Obligations.StepKeepsRegisters
  intro s t hs h
  refine step_keeps (P := fun s => ResultIsByte s ∧ GeometryOK s ∧ MaskRegsOK s) ?frame ?reset ?buffer ?result
    ?symbol hs h
  case frame =>
    intro s t hk ⟨hb, hg, hm⟩
    have hb' : ResultIsByte t := by rwa [ResultIsByte, hk.result]
    exact ⟨hb', geometryOK_of_symbolKept hk.symbol hg, maskRegsOK_of_symbolKept hk.symbol hm⟩
  case reset => decide
  case buffer => exact fun _ hs => hs
  case result => exact fun w ⟨_, hg, hm⟩ => ⟨w.toNat_lt, hg, hm⟩
  case symbol => exact fun w ⟨hb, hg, hm⟩ => ⟨hb, w.geometryOK hg, w.maskRegsOK hm⟩

end Sys2Proof.Machine

/-! ## Counting the modules of the inner part -/

namespace Sys2Proof.Machine

/-- The inner modules of a symbol, row by row. -/
def innerCells (side : Nat) : List (Nat × Nat) :=
  (List.range side).flatMap fun y => (List.range side).map fun x => (x, y)

@[simp] theorem mem_innerCells {side x y : Nat} : (x, y) ∈ innerCells side ↔ x < side ∧ y < side := by
  simp [innerCells, and_comm]

@[simp] theorem innerCells_length (side : Nat) : (innerCells side).length = side * side := by
  simp [innerCells]

theorem Grid.countInner_eq_countP (g : Grid) (side : Nat) (b : Bool) :
    g.countInner side b = (innerCells side).countP fun p => g.readInner p.1 p.2 == b := by
  simp only [Grid.countInner, Grid.innerRows, innerCells, List.countP_flatMap, List.map_map, Function.comp_def,
    List.count, List.countP_map]

/-- Every inner module is light or dark. -/
theorem Grid.countInner_add (g : Grid) (side : Nat) :
    g.countInner side false + g.countInner side true = side * side := by
  rw [Grid.countInner_eq_countP, Grid.countInner_eq_countP, ← innerCells_length side,
    List.length_eq_countP_add_countP fun p => g.readInner p.1 p.2 == false]
  congr 2
  funext p
  cases g.readInner p.1 p.2 <;> rfl

theorem Grid.countInner_le (g : Grid) (side : Nat) (b : Bool) : g.countInner side b ≤ side * side := by
  rw [Grid.countInner_eq_countP, ← innerCells_length side]
  exact List.countP_le_length

/-- A count of inner modules fits SYM_FREE (10_state.md R34). -/
theorem toNat_ofNat_countInner (g : Grid) {version : Nat} (h : version ≤ 40) (b : Bool) :
    (BitVec.ofNat 16 (g.countInner (innerSide version) b)).toNat = g.countInner (innerSide version) b := by
  rw [BitVec.toNat_ofNat]
  apply Nat.mod_eq_of_lt
  have hs : innerSide version ≤ 177 := by unfold innerSide; omega
  calc g.countInner (innerSide version) b ≤ innerSide version * innerSide version := g.countInner_le _ b
    _ ≤ 177 * 177 := Nat.mul_le_mul hs hs
    _ < 2 ^ 16 := by decide

/-! ## The modules that strokes name -/

/-- The modules a list of strokes writes. -/
def strokeCells (ks : List Stroke) : List (Nat × Nat) := ks.map fun k => (k.x, k.y)

theorem mem_strokeCells {ks : List Stroke} {x y : Nat} :
    (x, y) ∈ strokeCells ks ↔ ∃ k ∈ ks, x = k.x ∧ y = k.y := by
  simp [strokeCells, eq_comm]

@[simp] theorem strokeCells_append (ks ls : List Stroke) : strokeCells (ks ++ ls) = strokeCells ks ++ strokeCells ls :=
  List.map_append

@[simp] theorem strokeCells_allDark (ks : List Stroke) : strokeCells (allDark ks) = strokeCells ks := by
  simp [strokeCells, allDark]

theorem Grid.readInner_paint_of_not_mem_cells (g : Grid) {ks : List Stroke} {x y : Nat}
    (h : (x, y) ∉ strokeCells ks) : (g.paint ks).readInner x y = g.readInner x y :=
  Grid.readInner_paint_of_not_mem g ks x y fun k hk e => h (mem_strokeCells.mpr ⟨k, hk, e⟩)

/-- Painting dark marks exactly the modules named (43_symbol.md R89). -/
theorem Grid.readInner_paint_allDark (g : Grid) (ks : List Stroke) {x y : Nat} (hx : x < 177) (hy : y < 177) :
    (g.paint (allDark ks)).readInner x y = true ↔ (x, y) ∈ strokeCells ks ∨ g.readInner x y = true := by
  by_cases h : (x, y) ∈ strokeCells ks
  · rw [← strokeCells_allDark, mem_strokeCells] at h
    have hdark : ∀ k ∈ allDark ks, x = k.x → y = k.y → k.dark = true := by simp [allDark]
    rw [Grid.readInner_paint_of_mem g _ x y true (by omega) (by omega) h hdark, ← strokeCells_allDark,
      mem_strokeCells]
    simp only [h, true_or]
  · rw [Grid.readInner_paint_of_not_mem_cells g (by rwa [strokeCells_allDark])]
    simp only [h, false_or]

theorem quietLight_paint_of_cells {g : Grid} {side : Nat} {ks : List Stroke} (hg : QuietLight g side)
    (hk : ∀ x y, (x, y) ∈ strokeCells ks → x < side ∧ y < side) : QuietLight (g.paint ks) side :=
  quietLight_paint hg fun k hmem => hk k.x k.y (mem_strokeCells.mpr ⟨k, hmem, rfl, rfl⟩)

theorem mem_strokeCells_flatMap {α : Type} {l : List α} {f : α → List Stroke} {x y : Nat} :
    (x, y) ∈ strokeCells (l.flatMap f) ↔ ∃ a ∈ l, (x, y) ∈ strokeCells (f a) := by
  simp only [strokeCells, List.map_flatMap, List.mem_flatMap]

/-! ## The function modules (10_state.md R26, 43_symbol.md R89 to R95) -/

theorem mem_ringSquare {x0 y0 n x y : Nat} {darkAt : Nat → Bool} :
    (x, y) ∈ strokeCells (ringSquare x0 y0 n darkAt) ↔ InSquare x y x0 y0 n := by
  rw [ringSquare, mem_strokeCells_flatMap]
  simp only [mem_strokeCells, List.mem_map, List.mem_range, exists_exists_and_eq_and]
  constructor
  · rintro ⟨dx, hdx, dy, hdy, rfl, rfl⟩
    simp only [InSquare]
    omega
  · rintro ⟨hx0, hx, hy0, hy⟩
    exact ⟨x - x0, by omega, y - y0, by omega, by omega, by omega⟩

/-- The separator is the frame around the finder, as far as the symbol reaches (R90). -/
theorem mem_separatorStrokes {side fx fy x y : Nat} :
    (x, y) ∈ strokeCells (separatorStrokes side fx fy) ↔
      InSquare (x + 1) (y + 1) fx fy 9 ∧ ¬ InSquare x y fx fy 7 ∧ x < side ∧ y < side := by
  rw [separatorStrokes, mem_strokeCells_flatMap]
  simp only [mem_strokeCells, List.mem_filterMap, List.mem_range, Option.ite_none_right_eq_some, Option.some.injEq,
    InSquare]
  constructor
  · rintro ⟨i, hi, _, ⟨j, hj, hframe, rfl⟩, rfl, rfl⟩
    dsimp only
    omega
  · rintro ⟨⟨hx0, hx, hy0, hy⟩, hout, hxs, hys⟩
    refine ⟨x + 1 - fx, by omega, _, ⟨y + 1 - fy, by omega, by omega, rfl⟩, ?_, ?_⟩ <;> dsimp only <;> omega

/-- The three finder patterns with their separators cover the three finder areas (R90). -/
theorem mem_finderStep {side x y : Nat} (hs : 21 ≤ side) :
    (x, y) ∈ strokeCells (finderStep side) ↔ InFinderArea side x y := by
  simp only [finderStep, finderStrokes, finderCorners, mem_strokeCells_flatMap, strokeCells_append, List.mem_append,
    mem_ringSquare, mem_separatorStrokes, List.mem_cons, List.not_mem_nil, or_false, exists_eq_or_imp, exists_eq_left]
  simp only [InFinderArea, InSquare]
  omega

theorem mem_timingStep {side x y : Nat} (hs : 21 ≤ side) :
    (x, y) ∈ strokeCells (timingStep side) ↔ InTiming side x y := by
  rw [timingStep, mem_strokeCells_flatMap]
  simp only [mem_strokeCells, List.mem_cons, List.not_mem_nil, or_false, exists_eq_or_imp, exists_eq_left,
    List.mem_range]
  constructor
  · rintro ⟨k, hk, ⟨rfl, rfl⟩ | ⟨rfl, rfl⟩⟩
    · exact .inl ⟨rfl, by omega, by omega⟩
    · exact .inr ⟨rfl, by omega, by omega⟩
  · rintro (⟨rfl, h8, h⟩ | ⟨rfl, h8, h⟩)
    · exact ⟨x - 8, by omega, .inl ⟨by omega, rfl⟩⟩
    · exact ⟨y - 8, by omega, .inr ⟨rfl, by omega⟩⟩

/-- Where the centre coordinates of R41 stand: at a finder's timing line, or 16 or more from both edges. -/
theorem alignCenters_place {version : Nat} (h : version ≤ 40) {c : Nat} (hc : c ∈ alignCenters version) :
    2 ≤ version ∧ (c = 6 ∨ c + 7 = innerSide version ∨ (16 ≤ c ∧ c + 16 ≤ innerSide version)) := by
  have table : ∀ v < 41, ∀ c ∈ alignCenters v,
      2 ≤ v ∧ (c = 6 ∨ c + 7 = innerSide v ∨ (16 ≤ c ∧ c + 16 ≤ innerSide v)) := by decide
  exact table version (by omega) c hc

/-- The last centre coordinate of R41 is s − 7, and V = 1 has none. -/
theorem alignCenters_getLast? {version : Nat} (h : version ≤ 40) :
    (alignCenters version).getLast? = if 2 ≤ version then some (innerSide version - 7) else none := by
  have table : ∀ v < 41, (alignCenters v).getLast? = if 2 ≤ v then some (innerSide v - 7) else none := by decide
  exact table version (by omega)

/-- The centres whose square meets a finder area are the three of R92. -/
theorem mem_alignmentCenters {version cx cy : Nat} (h : version ≤ 40) :
    (cx, cy) ∈ alignmentCenters version ↔ AlignmentCentre version cx cy := by
  have hmem : (cx, cy) ∈ alignmentCenters version ↔
      (cx ∈ alignCenters version ∧ cy ∈ alignCenters version) ∧
        (finderAreas (innerSide version)).any (fun (ax, ay) => squaresMeet (cx - 2) (cy - 2) 5 ax ay 8) = false := by
    simp [alignmentCenters]
  rw [hmem, and_assoc]
  refine and_congr_right fun hx => and_congr_right fun hy => ?_
  obtain ⟨h2, px⟩ := alignCenters_place h hx
  obtain ⟨-, py⟩ := alignCenters_place h hy
  simp only [finderAreas, squaresMeet, List.any_cons, List.any_nil, Bool.or_false, Bool.or_eq_false_iff,
    decide_eq_false_iff_not, ne_eq, Prod.mk.injEq]
  unfold innerSide at px py ⊢
  omega

theorem mem_alignmentStep {version x y : Nat} (h : version ≤ 40) :
    (x, y) ∈ strokeCells (alignmentStep version) ↔ InAlignment version x y := by
  simp only [alignmentStep, alignmentStrokes, mem_strokeCells_flatMap, mem_ringSquare, Prod.exists]
  constructor
  · rintro ⟨cx, cy, hc, hin⟩
    have hc := (mem_alignmentCenters h).mp hc
    exact ⟨cx, hc.1, cy, hc.2.1, hc, hin⟩
  · rintro ⟨cx, -, cy, -, hc, hin⟩
    exact ⟨cx, cy, (mem_alignmentCenters h).mpr hc, hin⟩

/-- Strokes at listed cells name exactly those cells. -/
theorem strokeCells_map_cells (l : List (Nat × Nat)) (b : Bool) :
    strokeCells (l.map fun (x, y) => ⟨x, y, b⟩) = l := by
  simp [strokeCells, Function.comp_def]

theorem mem_formatStrokes {side x y : Nat} {bit : Nat → Bool} :
    (x, y) ∈ strokeCells (formatStrokes side bit) ↔ InFormat side x y := by
  simp only [formatStrokes, mem_strokeCells_flatMap, strokeCells_map_cells, List.mem_range]

theorem mem_versionStrokes {version x y : Nat} {bit : Nat → Bool} :
    (x, y) ∈ strokeCells (versionStrokes version bit) ↔ InVersion version x y := by
  unfold versionStrokes
  split
  · next h => simp only [mem_strokeCells_flatMap, strokeCells_map_cells, List.mem_range, InVersion, h, true_and]
  · next h => simp [strokeCells, h]

/-- SYM_FUNCTION writes exactly the function modules (R89 to R94). -/
theorem mem_functionStrokes {version x y : Nat} (h1 : 1 ≤ version) (h40 : version ≤ 40) :
    (x, y) ∈ strokeCells (functionStrokes version) ↔ FunctionModule version x y := by
  have hs : 21 ≤ innerSide version := by unfold innerSide; omega
  have hdark : (x, y) ∈ strokeCells (darkModuleStep version) ↔ x = 8 ∧ y = 4 * version + 9 := by
    simp [strokeCells, darkModuleStep]
  simp only [functionStrokes, reserveStep, strokeCells_append, List.mem_append, mem_finderStep hs, mem_timingStep hs,
    mem_alignmentStep h40, hdark, mem_formatStrokes, mem_versionStrokes, FunctionModule, or_assoc]

theorem formatCells_lt {side i x y : Nat} (hs : 21 ≤ side) (hi : i < 15) (h : (x, y) ∈ formatCells side i) :
    x < side ∧ y < side := by
  unfold formatCells at h
  split_ifs at h <;> simp only [List.mem_cons, Prod.mk.injEq, List.not_mem_nil, or_false] at h <;> omega

theorem versionCells_lt {side i x y : Nat} (hs : 21 ≤ side) (hi : i < 18) (h : (x, y) ∈ versionCells side i) :
    x < side ∧ y < side := by
  simp only [versionCells, List.mem_cons, Prod.mk.injEq, List.not_mem_nil, or_false] at h
  omega

/-- A function module lies in the symbol. -/
theorem FunctionModule.lt {version x y : Nat} (h1 : 1 ≤ version) (h40 : version ≤ 40)
    (h : FunctionModule version x y) : x < innerSide version ∧ y < innerSide version := by
  have hside : innerSide version = 17 + 4 * version := rfl
  rcases h with hf | ht | ⟨cx, hx, cy, hy, -, hin⟩ | hd | ⟨i, hi, hf⟩ | ⟨-, i, hi, hv⟩
  · simp only [InFinderArea, InSquare] at hf; omega
  · simp only [InTiming] at ht; omega
  · obtain ⟨-, px⟩ := alignCenters_place h40 hx
    obtain ⟨-, py⟩ := alignCenters_place h40 hy
    simp only [InSquare] at hin
    omega
  · omega
  · exact formatCells_lt (by omega) hi hf
  · exact versionCells_lt (by omega) hi hv

/-- The timing column is used from edge to edge (R90, R91). -/
theorem functionModule_column_six {version y : Nat} (h1 : 1 ≤ version) (hy : y < innerSide version) :
    FunctionModule version 6 y := by
  unfold innerSide at hy
  by_cases ht : 8 ≤ y ∧ y ≤ innerSide version - 9
  · exact .inr (.inl (.inr ⟨rfl, ht⟩))
  · unfold innerSide at ht
    refine .inl ?_
    simp only [InFinderArea, InSquare, innerSide]
    omega

theorem innerSide_le {version : Nat} (h : version ≤ 40) : innerSide version ≤ 177 := by unfold innerSide; omega

theorem functionCells_lt {version x y : Nat} (h1 : 1 ≤ version) (h40 : version ≤ 40)
    (h : (x, y) ∈ strokeCells (functionStrokes version)) : x < innerSide version ∧ y < innerSide version :=
  ((mem_functionStrokes h1 h40).mp h).lt h1 h40

theorem paintFunction_zero_module (version : Nat) :
    (paintFunction Grids.zero version).module = Grid.zero.paint (functionStrokes version) := by
  simp only [paintFunction, Grids.zero]

theorem paintFunction_zero_func (version : Nat) :
    (paintFunction Grids.zero version).func = Grid.zero.paint (allDark (functionStrokes version)) := by
  simp only [paintFunction, Grids.zero]

/-- On an empty symbol SYM_FUNCTION marks in USED what it marks in FUNC (R89). -/
theorem paintFunction_zero_used (version : Nat) :
    (paintFunction Grids.zero version).used = (paintFunction Grids.zero version).func := by
  simp only [paintFunction, Grids.zero]

/-- FUNC after SYM_FUNCTION (R26, R89). -/
theorem readInner_paintFunction_func {version x y : Nat} (h1 : 1 ≤ version) (h40 : version ≤ 40)
    (hx : x < innerSide version) (hy : y < innerSide version) :
    (paintFunction Grids.zero version).func.readInner x y = true ↔ FunctionModule version x y := by
  have hs := innerSide_le h40
  rw [paintFunction_zero_func, Grid.readInner_paint_allDark _ _ (by omega) (by omega), Grid.readInner_zero,
    mem_functionStrokes h1 h40]
  simp only [Bool.false_eq_true, or_false]

/-- SYM_FUNCTION leaves the quiet zone light (R26). -/
theorem quietLight_paintFunction_module {version : Nat} (h1 : 1 ≤ version) (h40 : version ≤ 40) :
    QuietLight (paintFunction Grids.zero version).module (innerSide version) := by
  rw [paintFunction_zero_module]
  exact quietLight_paint_of_cells (quietLight_zero _) fun _ _ h => functionCells_lt h1 h40 h

theorem quietLight_paintFunction_func {version : Nat} (h1 : 1 ≤ version) (h40 : version ≤ 40) :
    QuietLight (paintFunction Grids.zero version).func (innerSide version) := by
  rw [paintFunction_zero_func]
  refine quietLight_paint_of_cells (quietLight_zero _) fun x y h => functionCells_lt h1 h40 ?_
  rwa [strokeCells_allDark] at h

end Sys2Proof.Machine

/-! ## The placement order (43_symbol.md R99, R100) -/

namespace Sys2Proof.Machine

/-- The right column of the pair that R99's loop takes at column x: column 6 is skipped. -/
def rightColumn (x : Nat) : Nat := if x = 6 then 5 else x

/-- The positions of one column pair. -/
def pairCells (side x : Nat) (up : Bool) : List (Nat × Nat) :=
  (pairRows side up).flatMap fun y => [(rightColumn x, y), (rightColumn x - 1, y)]

theorem zigzagFrom_of_lt (side fuel : Nat) {x : Nat} (up : Bool) (h : x < 1) : zigzagFrom side fuel x up = [] := by
  cases fuel with
  | zero => rfl
  | succ fuel => exact if_pos h

theorem zigzagFrom_succ (side fuel : Nat) {x : Nat} (up : Bool) (h : 1 ≤ x) :
    zigzagFrom side (fuel + 1) x up = pairCells side x up ++ zigzagFrom side fuel (rightColumn x - 2) (!up) :=
  if_neg (Nat.not_lt.mpr h)

theorem mem_pairRows {side y : Nat} {up : Bool} : y ∈ pairRows side up ↔ y < side := by
  cases up <;> simp [pairRows]

theorem pairRows_nodup (side : Nat) (up : Bool) : (pairRows side up).Nodup := by
  cases up <;> simp [pairRows, List.nodup_range]

theorem mem_pairCells {side x a b : Nat} {up : Bool} :
    (a, b) ∈ pairCells side x up ↔ (a = rightColumn x ∨ a = rightColumn x - 1) ∧ b < side := by
  simp only [pairCells, List.mem_flatMap, mem_pairRows, List.mem_cons, Prod.mk.injEq, List.not_mem_nil, or_false]
  constructor
  · rintro ⟨y, hy, ⟨rfl, rfl⟩ | ⟨rfl, rfl⟩⟩
    · exact ⟨.inl rfl, hy⟩
    · exact ⟨.inr rfl, hy⟩
  · rintro ⟨h | h, hb⟩
    · exact ⟨b, hb, .inl ⟨h, rfl⟩⟩
    · exact ⟨b, hb, .inr ⟨h, rfl⟩⟩

theorem rightColumn_bounds {x : Nat} (h : 1 ≤ x) : 1 ≤ rightColumn x ∧ rightColumn x ≤ x := by
  unfold rightColumn
  split <;> omega

/-- From column x on the loop visits columns up to x only, and none when x is 0. -/
theorem mem_zigzagFrom_bounds {side fuel x a b : Nat} {up : Bool} (h : (a, b) ∈ zigzagFrom side fuel x up) :
    1 ≤ x ∧ a ≤ x ∧ b < side := by
  induction fuel generalizing x up with
  | zero => cases h
  | succ fuel ih =>
    by_cases hx : x < 1
    · rw [zigzagFrom_of_lt _ _ _ hx] at h
      cases h
    · rw [zigzagFrom_succ _ _ _ (by omega), List.mem_append, mem_pairCells] at h
      have hr := rightColumn_bounds (x := x) (by omega)
      rcases h with ⟨ha, hb⟩ | h
      · omega
      · have := ih h
        omega

theorem pairCells_nodup (side : Nat) {x : Nat} (up : Bool) (h : 1 ≤ x) : (pairCells side x up).Nodup := by
  have hr := (rightColumn_bounds h).1
  have row : ∀ {y : Nat} {p : Nat × Nat}, p ∈ [(rightColumn x, y), (rightColumn x - 1, y)] → p.2 = y := by
    rintro y p hp
    rcases List.mem_pair.mp hp with rfl | rfl <;> rfl
  refine List.nodup_flatMap.mpr ⟨fun y _ => ?_, (pairRows_nodup side up).imp fun hne => ?_⟩
  · simp only [List.nodup_cons, List.mem_singleton, Prod.mk.injEq, List.not_mem_nil, not_false_eq_true,
      List.nodup_nil, and_true]
    omega
  · exact List.disjoint_left.mpr fun p hp hp' => hne ((row hp).symm.trans (row hp'))

/-- No position occurs twice (R99): later pairs lie left of the pair just taken. -/
theorem zigzagFrom_nodup (side fuel x : Nat) (up : Bool) : (zigzagFrom side fuel x up).Nodup := by
  induction fuel generalizing x up with
  | zero => exact List.nodup_nil
  | succ fuel ih =>
    by_cases hx : x < 1
    · rw [zigzagFrom_of_lt _ _ _ hx]
      exact List.nodup_nil
    · rw [zigzagFrom_succ _ _ _ (by omega), List.nodup_append']
      refine ⟨pairCells_nodup side up (by omega), ih _ _, List.disjoint_left.mpr ?_⟩
      rintro ⟨a, b⟩ hp hz
      have ha := (mem_pairCells.mp hp).1
      have hb := mem_zigzagFrom_bounds hz
      omega

/-- From an even column at or right of 6, or an odd one left of it, the loop reaches every column but 6. -/
theorem mem_zigzagFrom {side fuel x a b : Nat} {up : Bool} (hfuel : x ≤ fuel)
    (hx : (x % 2 = 0 ∧ 6 ≤ x) ∨ (x % 2 = 1 ∧ x < 6)) (ha : a ≤ x) (ha6 : a ≠ 6) (hb : b < side) :
    (a, b) ∈ zigzagFrom side fuel x up := by
  induction fuel generalizing x up with
  | zero => omega
  | succ fuel ih =>
    rw [zigzagFrom_succ _ _ _ (by omega), List.mem_append, mem_pairCells]
    have hr : (x = 6 ∧ rightColumn x = 5) ∨ (x ≠ 6 ∧ rightColumn x = x) := by
      unfold rightColumn
      split <;> omega
    by_cases hpair : a = rightColumn x ∨ a = rightColumn x - 1
    · exact .inl ⟨hpair, hb⟩
    · exact .inr (ih (by omega) (by omega) (by omega))

theorem zigzag_nodup (side : Nat) : (zigzag side).Nodup := zigzagFrom_nodup _ _ _ _

/-- The placement order stays in the symbol (R99). -/
theorem lt_of_mem_zigzag {version x y : Nat} (h : (x, y) ∈ zigzag (innerSide version)) :
    x < innerSide version ∧ y < innerSide version := by
  have := mem_zigzagFrom_bounds h
  omega

/-- It visits every inner position outside column 6 (R99). -/
theorem mem_zigzag_of_ne_six {version x y : Nat} (h : 1 ≤ version) (hx : x < innerSide version)
    (hy : y < innerSide version) (h6 : x ≠ 6) : (x, y) ∈ zigzag (innerSide version) := by
  have hside : innerSide version = 17 + 4 * version := rfl
  exact mem_zigzagFrom (by omega) (by omega) (by omega) h6 hy

theorem mem_freeCells {used : Grid} {side x y : Nat} :
    (x, y) ∈ freeCells used side ↔ (x, y) ∈ zigzag side ∧ used.readInner x y = false := by
  simp [freeCells]

/-- There are no more free positions than light modules of USED: no position occurs twice. -/
theorem freeCells_length_le (used : Grid) (version : Nat) :
    (freeCells used (innerSide version)).length ≤ used.countInner (innerSide version) false := by
  rw [Grid.countInner_eq_countP, List.countP_eq_length_filter]
  refine (List.Nodup.subperm ((zigzag_nodup _).filter _) ?_).length_le
  rintro ⟨x, y⟩ hm
  obtain ⟨hz, hu⟩ := mem_freeCells.mp hm
  simpa [hu] using lt_of_mem_zigzag hz

/-- With a bit for each free position, SYM_PLACE writes exactly the free positions (R100). -/
theorem strokeCells_placeStrokes {used : Grid} {side : Nat} {bits : Bits}
    (h : (freeCells used side).length ≤ bits.length) :
    strokeCells (placeStrokes used side bits) = freeCells used side := by
  rw [strokeCells, placeStrokes, List.map_zipWith]
  have hfst := List.map_fst_zip h
  rwa [List.map_zip_eq_zipWith] at hfst

/-! ## The grids (10_state.md R26, 43_symbol.md R95, R100, 44_mask.md R113) -/

theorem paintFunction_zero_out (version : Nat) : (paintFunction Grids.zero version).out = Grid.zero := by
  simp only [paintFunction, Grids.zero]

/-- SYM_PLACE on a painted symbol, with a bit for each free module, uses every module and leaves the function modules
(R100). -/
theorem placedGrids_of_func {s : State} {bits : Bits} (h1 : 1 ≤ s.versionNat) (h40 : s.versionNat ≤ 40)
    (hg : s.grids = paintFunction Grids.zero s.versionNat)
    (hlen : bits.length = s.grids.used.countInner s.side false) (n : PenRegs) :
    PlacedGrids (s.setSymbol .placed { s.sym with free := 0 } n
      { s.grids with
        module := s.grids.module.paint (placeStrokes s.grids.used s.side bits),
        used := s.grids.used.paint (allDark (placeStrokes s.grids.used s.side bits)) }) := by
  have hs : s.side ≤ 177 := innerSide_le h40
  have hcells : strokeCells (placeStrokes s.grids.used s.side bits) = freeCells s.grids.used s.side :=
    strokeCells_placeStrokes (hlen ▸ freeCells_length_le _ _)
  have hfree : ∀ x y, (x, y) ∈ strokeCells (placeStrokes s.grids.used s.side bits) → x < s.side ∧ y < s.side :=
    fun x y h => lt_of_mem_zigzag (mem_freeCells.mp (hcells ▸ h)).1
  have hused : s.grids.used = s.grids.func := by rw [hg]; exact paintFunction_zero_used _
  constructor
  case func => exact (congrArg Grids.func hg : s.grids.func = _)
  case finder => exact (congrArg Grids.finder hg : s.grids.finder = _)
  case lastAlign => exact (congrArg Grids.lastAlign hg : s.grids.lastAlign = _)
  case used =>
    intro x y hx hy
    change x < s.side at hx
    change y < s.side at hy
    refine (Grid.readInner_paint_allDark _ _ (by omega) (by omega)).mpr ?_
    rw [hcells, mem_freeCells]
    cases hu : s.grids.used.readInner x y with
    | true => exact .inr rfl
    | false =>
      refine .inl ⟨mem_zigzag_of_ne_six h1 hx hy ?_, rfl⟩
      rintro rfl
      rw [hused, hg, (readInner_paintFunction_func h1 h40 hx hy).mpr (functionModule_column_six h1 hy)] at hu
      cases hu
  case usedQuiet =>
    refine quietLight_paint_of_cells ?_ fun x y h => hfree x y (by rwa [strokeCells_allDark] at h)
    rw [hused, hg]
    exact quietLight_paintFunction_func h1 h40
  case moduleQuiet =>
    refine quietLight_paint_of_cells ?_ hfree
    rw [hg]
    exact quietLight_paintFunction_module h1 h40
  case fixed =>
    intro x y hx hy hf
    have hnot : (x, y) ∉ strokeCells (placeStrokes s.grids.used s.side bits) := by
      rw [hcells, mem_freeCells, hused]
      rintro ⟨-, hu⟩
      exact absurd hf (by simpa using hu)
    exact (Grid.readInner_paint_of_not_mem_cells _ hnot).trans
      (congrArg (fun g : Grids => g.module.readInner x y) hg)
  case free => rfl
  case out => exact (congrArg Grids.out hg).trans (paintFunction_zero_out _)

/-- Applying a mask to a placed symbol makes OUT the symbol of that mask (R113, R114, R116). -/
theorem PlacedGrids.applyMask {s : State} (h : PlacedGrids s) (m : MaskIdx) {p : Phase} (hp : p.allowsScore = true)
    (n : PenRegs) : PlacedGrids (s.setSymbol p (s.maskedRegs m) n { s.grids with out := s.build m }) := by
  obtain ⟨func, finder, lastAlign, used, usedQuiet, moduleQuiet, fixed, free, -⟩ := h
  refine ⟨func, finder, lastAlign, used, usedQuiet, moduleQuiet, fixed, free, ?_⟩
  rw [State.setSymbol_phase, if_pos hp]
  change s.build m = s.build (BitVec.ofNat 3 m.val).toFin
  rw [toFin_ofNat_maskIdx]

theorem gridsOK_iff_placed {s : State} (hp : s.phase.allowsMask = true) : GridsOK s ↔ PlacedGrids s := by
  simp only [Phase.allowsMask_iff, List.mem_cons, List.not_mem_nil, or_false] at hp
  rcases hp with e | e | e <;> rw [GridsOK, e]

/-- The grid invariant speaks of PHASE, the symbol registers and the grids only. -/
theorem gridsOK_of_eq {s t : State} (hs : GridsOK s) (phase : t.phase = s.phase) (sym : t.sym = s.sym)
    (grids : t.grids = s.grids) : GridsOK t := by
  have placed : PlacedGrids s → PlacedGrids t := by
    rintro ⟨func, finder, lastAlign, used, usedQuiet, moduleQuiet, fixed, free, out⟩
    constructor <;> simp only [State.side, State.versionNat, State.build, State.maskIdx, phase, sym, grids] <;>
      assumption
  unfold GridsOK State.side State.versionNat at *
  rw [phase, sym, grids]
  cases hp : s.phase <;> rw [hp] at hs
  case empty => trivial
  case init => exact hs
  case func => exact hs
  case placed => exact placed hs
  case masked => exact placed hs
  case final => exact placed hs

theorem toNat_initSymRegs_free {v : BitVec 6} (lvl : Level) (h40 : v.toNat ≤ 40) :
    (initSymRegs v lvl).free.toNat = innerSide v.toNat * innerSide v.toNat := by
  have hs := innerSide_le h40
  exact Nat.mod_eq_of_lt ((Nat.mul_le_mul hs hs).trans_lt (by decide))

/-- A symbol write leaves the grids of its phase: cleared, painted, filled, masked. -/
theorem SymbolWrite.gridsOK {s : State} {i : Instr} {p : Phase} {y : SymRegs} {n : PenRegs} {g : Grids}
    (w : SymbolWrite s i p y n g) (hgeo : GeometryOK s) (hs : GridsOK s) : GridsOK (s.setSymbol p y n g) := by
  cases w with
  | symInit v lvl version level =>
    obtain ⟨h1, h40, hv⟩ := versionOperand_eq_some.mp version
    exact ⟨rfl, toNat_initSymRegs_free lvl (by omega)⟩
  | symFunction phase =>
    have hy := (geometryOK_iff (by rw [phase]; decide)).mp hgeo
    rw [GridsOK, phase] at hs
    refine ⟨congrArg (paintFunction · s.versionNat) hs.1, ?_⟩
    exact toNat_ofNat_countInner _ hy.version_le false
  | symPlace ss phase length =>
    have hy := (geometryOK_iff (by rw [phase]; decide)).mp hgeo
    rw [GridsOK, phase] at hs
    exact placedGrids_of_func hy.version_pos hy.version_le hs.1 (length.trans hs.2) s.pen
  | symApplyMask m phase => exact ((gridsOK_iff_placed phase).mp hs).applyMask m rfl s.pen
  | symScore => exact gridsOK_of_eq hs rfl rfl rfl
  | symSelectMask best n phase => exact ((gridsOK_iff_placed phase).mp hs).applyMask best rfl n

/-- Settles O56: each symbol write leaves the grids of the phase it enters, and no other step touches them. -/
theorem stepKeepsGrids : Obligations.StepKeepsGrids := by
  unfold Obligations.StepKeepsGrids
  intro s t hgeo _ hgrids h
  refine (step_keeps (P := fun s => GeometryOK s ∧ GridsOK s) ?frame ?reset ?buffer ?result ?symbol
    ⟨hgeo, hgrids⟩ h).2
  case frame =>
    intro s t ⟨_, _, hk⟩ ⟨hy, hg⟩
    exact ⟨geometryOK_of_symbolKept hk hy, gridsOK_of_eq hg hk.phase hk.sym hk.grids⟩
  case reset => exact ⟨by decide, trivial⟩
  case buffer => exact fun _ ⟨hy, hg⟩ => ⟨hy, gridsOK_of_eq hg rfl rfl rfl⟩
  case result => exact fun _ ⟨hy, hg⟩ => ⟨hy, gridsOK_of_eq hg rfl rfl rfl⟩
  case symbol => exact fun w ⟨hy, hg⟩ => ⟨w.geometryOK hy, w.gridsOK hy hg⟩

end Sys2Proof.Machine

/-! ## The marks SYM_FUNCTION leaves (10_state.md R26, 43_symbol.md R95) -/

namespace Sys2Proof.Machine

/-- SYM_FUNCTION in phase INIT (43_symbol.md R98). -/
theorem exec_symFunction_of_init {s : State} (hp : s.phase = .init) :
    exec .symFunction s = .next (s.setSymbol .func
      { s.sym with free := BitVec.ofNat 16 ((paintFunction s.grids s.versionNat).used.countInner s.side false) }
      s.pen (paintFunction s.grids s.versionNat)).complete :=
  if_neg (not_not.mpr hp)

/-- FINDER marks the three finder patterns (R95). -/
theorem readInner_finderOverlay {version x y : Nat} (h40 : version ≤ 40) (hx : x < innerSide version)
    (hy : y < innerSide version) :
    (finderOverlay version).readInner x y = true ↔ InFinder (innerSide version) x y := by
  have hs := innerSide_le h40
  have hdark : finderOverlay version = Grid.zero.paint (allDark
      ((finderCorners (innerSide version)).flatMap fun (fx, fy) => ringSquare fx fy 7 (fun _ => true))) := by
    simp only [finderOverlay, allDark, ringSquare, List.map_flatMap, List.map_map, Function.comp_def]
  rw [hdark, Grid.readInner_paint_allDark _ _ (by omega) (by omega), Grid.readInner_zero, mem_strokeCells_flatMap]
  simp only [finderCorners, mem_ringSquare, List.mem_cons, List.not_mem_nil, or_false, exists_eq_or_imp,
    exists_eq_left, Bool.false_eq_true, InFinder]

/-- LASTALIGN marks the square centred at (s − 7, s − 7) for V ≥ 2 (R95). -/
theorem lastAlignOverlay_eq {version : Nat} (h40 : version ≤ 40) :
    lastAlignOverlay version = if 2 ≤ version then
      Grid.zero.paint (allDark (ringSquare (innerSide version - 9) (innerSide version - 9) 5 (fun _ => true)))
    else Grid.zero := by
  rw [lastAlignOverlay, alignCenters_getLast? h40]
  by_cases h2 : 2 ≤ version
  · rw [if_pos h2, if_pos h2]
    simp only [allDark, ringSquare, List.map_flatMap, List.map_map, Function.comp_def, Nat.sub_sub]
  · rw [if_neg h2, if_neg h2]

theorem readInner_lastAlignOverlay {version x y : Nat} (h40 : version ≤ 40) (hx : x < innerSide version)
    (hy : y < innerSide version) :
    (lastAlignOverlay version).readInner x y = true ↔
      2 ≤ version ∧ InSquare x y (innerSide version - 9) (innerSide version - 9) 5 := by
  have hs := innerSide_le h40
  rw [lastAlignOverlay_eq h40]
  by_cases h2 : 2 ≤ version
  · rw [if_pos h2, Grid.readInner_paint_allDark _ _ (by omega) (by omega), Grid.readInner_zero, mem_ringSquare]
    simp only [h2, Bool.false_eq_true, or_false, true_and]
  · rw [if_neg h2, Grid.readInner_zero]
    simp only [h2, Bool.false_eq_true, false_and]

theorem quietLight_finderOverlay (version : Nat) : QuietLight (finderOverlay version) (innerSide version) := by
  refine quietLight_paint_of_cells (quietLight_zero _) fun x y h => ?_
  rw [mem_strokeCells_flatMap] at h
  simp only [finderCorners, mem_ringSquare, List.mem_cons, List.not_mem_nil, or_false, exists_eq_or_imp,
    exists_eq_left, InSquare] at h
  unfold innerSide at *
  omega

theorem quietLight_lastAlignOverlay {version : Nat} (h40 : version ≤ 40) :
    QuietLight (lastAlignOverlay version) (innerSide version) := by
  rw [lastAlignOverlay_eq h40]
  by_cases h2 : 2 ≤ version
  · rw [if_pos h2]
    refine quietLight_paint_of_cells (quietLight_zero _) fun x y h => ?_
    rw [strokeCells_allDark, mem_ringSquare, InSquare] at h
    unfold innerSide at *
    omega
  · rw [if_neg h2]
    exact quietLight_zero _

/-- The quiet zone is light in every grid after SYM_FUNCTION on an empty symbol (R26). -/
theorem quietLight_paintFunction {version : Nat} (h1 : 1 ≤ version) (h40 : version ≤ 40) (g : GridName) :
    QuietLight ((paintFunction Grids.zero version).get g) (innerSide version) := by
  cases g with
  | out => rw [Grids.get, paintFunction_zero_out]; exact quietLight_zero _
  | module => exact quietLight_paintFunction_module h1 h40
  | func => exact quietLight_paintFunction_func h1 h40
  | used => rw [Grids.get, paintFunction_zero_used]; exact quietLight_paintFunction_func h1 h40
  | finder => exact quietLight_finderOverlay version
  | lastAlign => exact quietLight_lastAlignOverlay h40

/-- Settles O26: the strokes of SYM_FUNCTION name exactly the function modules, those of the overlays theirs. -/
theorem symFunctionMarksFunctionModules : Obligations.SymFunctionMarksFunctionModules := by
  unfold Obligations.SymFunctionMarksFunctionModules
  intro s hp hg h1 h40
  refine ⟨_, exec_symFunction_of_init hp, ?_⟩
  simp only [State.complete_grids, State.setSymbol_grids, State.complete_sym, State.setSymbol_sym, hg]
  refine ⟨fun x y hx hy => ⟨readInner_paintFunction_func h1 h40 hx hy, ?_, readInner_finderOverlay h40 hx hy,
    readInner_lastAlignOverlay h40 hx hy⟩, quietLight_paintFunction h1 h40, ?_⟩
  · rw [paintFunction_zero_used]
  · rw [State.side, toNat_ofNat_countInner _ h40]
    exact Grid.countInner_add _ _

/-! ## Symbol allocation (43_symbol.md R97) -/

/-- SYM_INIT with a version and a level (43_symbol.md R97). -/
theorem exec_symInit_of_operands {s : State} {v : BitVec 6} {lvl : Level} (hv : versionOperand s.latch.arg0 = some v)
    (hl : levelOperand s.latch.arg1 = some lvl) :
    exec .symInit s =
      .next (s.setSymbol .init (initSymRegs v lvl) PenRegs.zero Grids.zero).complete := by
  simp only [exec, execSymInit, hv, hl]
  rfl

/-- Settles O24: with operands in range SYM_INIT takes its one completing branch, whose registers have the geometry of
the version. -/
theorem symInitAllocates : Obligations.SymInitAllocates := by
  unfold Obligations.SymInitAllocates
  intro s h1 h40 h3
  have hver : versionOperand s.latch.arg0 ≠ none := mt versionOperand_eq_none.mp (by omega)
  have hlvl : levelOperand s.latch.arg1 ≠ none := mt levelOperand_eq_none.mp (by omega)
  obtain ⟨v, hv⟩ := Option.ne_none_iff_exists'.mp hver
  obtain ⟨lvl, hl⟩ := Option.ne_none_iff_exists'.mp hlvl
  have hnum : v.toNat = s.latch.arg0.toNat := (versionOperand_eq_some.mp hv).2.2
  obtain ⟨-, -, inner, size, fpTL, fpTR_x, fpTR_y, fpBL_x, fpBL_y⟩ :=
    symGeometry_initSymRegs (v := v) lvl (by omega) (by omega)
  refine ⟨_, exec_symInit_of_operands hv hl, rfl, ?_⟩
  rw [← hnum]
  refine ⟨rfl, ?level, rfl, inner, size, toNat_initSymRegs_free lvl (by omega), fpTL, fpTR_x, fpTR_y, fpBL_x, fpBL_y,
    rfl, rfl, rfl, rfl, rfl, rfl, rfl, rfl, ?perMask, ?grids, symbolFrame_complete s _ _ _ _⟩
  case level => exact (levelOperand_eq_some.mp hl).symm
  case perMask => exact fun m => Vector.getElem_replicate _
  case grids => exact fun g X Y => by cases g <;> exact Grid.read_zero X Y

/-! ## What commands leave unchanged -/

/-- Settles O7: neither end of a command, nor any of its writes, names one of these fields. -/
theorem commandsKeepHostRegisters : Obligations.CommandsKeepHostRegisters := by
  unfold Obligations.CommandsKeepHostRegisters
  intro i s t h
  cases exec_commandEnd h with
  | error => exact ⟨⟨rfl, rfl, rfl, rfl, rfl, rfl⟩, rfl⟩
  | nop => exact ⟨⟨rfl, rfl, rfl, rfl, rfl, rfl⟩, rfl⟩
  | buffer => exact ⟨⟨rfl, rfl, rfl, rfl, rfl, rfl⟩, rfl⟩
  | result => exact ⟨⟨rfl, rfl, rfl, rfl, rfl, rfl⟩, rfl⟩
  | symbol => exact ⟨⟨rfl, rfl, rfl, rfl, rfl, rfl⟩, rfl⟩

/-- Settles O8: a family's writes are buffer, RESULT or symbol writes, and an error writes nothing of these. -/
theorem familiesKeepEachOthersState : Obligations.FamiliesKeepEachOthersState := by
  unfold Obligations.FamiliesKeepEachOthersState
  intro i s t h
  cases exec_commandEnd h with
  | error code =>
    obtain ⟨bufs, result, symbol⟩ := dataKept_errorState s code
    have others : ∀ sd, BufsKeptBut sd s (errorState s code) := fun _ j _ => bufs j
    cases i <;> simp only [bufs, result, symbol, others, and_self]
  | nop instr =>
    subst instr
    exact ⟨⟨rfl, rfl, rfl, rfl⟩, fun _ => rfl, rfl⟩
  | buffer w =>
    cases w <;> exact ⟨⟨rfl, rfl, rfl, rfl⟩, fun _ hj => State.buf_setBuf_of_ne s _ hj, rfl⟩
  | result w => cases w <;> exact ⟨⟨rfl, rfl, rfl, rfl⟩, fun _ => rfl⟩
  | symbol w => cases w <;> exact ⟨fun _ => rfl, rfl⟩

/-- Settles O31: only a symbol write names PHASE, in the phase its guard asks for. -/
theorem phaseTransitions : Obligations.PhaseTransitions := by
  unfold Obligations.PhaseTransitions
  intro i s t h hne
  cases exec_commandEnd h with
  | error => exact absurd rfl hne
  | nop => exact absurd rfl hne
  | buffer => exact absurd rfl hne
  | result => exact absurd rfl hne
  | symbol w =>
    cases w with
    | symInit => exact .inl ⟨rfl, rfl⟩
    | symFunction phase => exact .inr (.inl ⟨rfl, phase, rfl⟩)
    | symPlace ss phase => exact .inr (.inr (.inl ⟨⟨ss, rfl⟩, phase, rfl⟩))
    | symApplyMask m phase =>
      exact .inr (.inr (.inr (.inl ⟨⟨m, rfl⟩, (Phase.allowsMask_iff _).mp phase, rfl⟩)))
    | symScore => exact absurd rfl hne
    | symSelectMask _ _ phase => exact .inr (.inr (.inr (.inr ⟨rfl, (Phase.allowsMask_iff _).mp phase, rfl⟩)))

/-! ## Mask selection (44_mask.md R116) -/

/-- SYM_APPLY_MASK in a phase that allows it (44_mask.md R114). -/
theorem exec_symApplyMask_of_allowed {s : State} (hp : s.phase.allowsMask = true) (m : MaskIdx) :
    exec (.symApplyMask m) s =
      .next (s.setSymbol .masked (s.maskedRegs m) s.pen { s.grids with out := s.build m }).complete :=
  if_neg (by simp [hp])

/-- SYM_SCORE in a phase that allows it (R115). -/
theorem exec_symScore_of_allowed {s : State} (hp : s.phase.allowsScore = true) :
    exec .symScore s =
      .next (s.setSymbol s.phase s.sym (s.pen.setScore (scoreGrid s.grids.out s.side)) s.grids).complete :=
  if_neg (by simp [hp])

/-- The mask SYM_SELECT_MASK chooses (R116). -/
def State.chosenMask (s : State) : MaskIdx := bestMask fun m => (s.trial m).total

/-- SYM_SELECT_MASK in a phase that allows it (R116), the trials written out. -/
theorem exec_symSelectMask_of_allowed {s : State} (hp : s.phase.allowsMask = true) :
    exec .symSelectMask s = .next (s.setSymbol .final (s.maskedRegs s.chosenMask)
      { s.pen.setScore (s.trial s.chosenMask) with
        perMask := Vector.ofFn fun m => BitVec.ofNat 32 (s.trial m).total }
      { s.grids with out := s.build s.chosenMask }).complete := by
  refine (if_neg (by simp [hp])).trans ?_
  simp only [Vector.map_ofFn, Fin.getElem_fin, Vector.getElem_ofFn]
  rfl

/-- SYM_SCORE after SYM_APPLY_MASK writes the score of that mask's trial (R114 to R116). -/
theorem exec_symScore_after_applyMask (s : State) (m : MaskIdx) :
    exec .symScore (s.setSymbol .masked (s.maskedRegs m) s.pen { s.grids with out := s.build m }).complete =
      .next (s.setSymbol .masked (s.maskedRegs m) (s.pen.setScore (s.trial m))
        { s.grids with out := s.build m }).complete :=
  exec_symScore_of_allowed rfl

/-- Settles O39: a trial is the score that applying its mask and scoring leaves. -/
theorem selectEqualsApplyThenScore : Obligations.SelectEqualsApplyThenScore := by
  unfold Obligations.SelectEqualsApplyThenScore
  intro s hphase
  have hp := (Phase.allowsMask_iff _).mpr hphase
  refine ⟨_, s.chosenMask, exec_symSelectMask_of_allowed hp, rfl, ?_, fun m => ?_⟩
  · exact ⟨_, _, exec_symApplyMask_of_allowed hp _, exec_symScore_after_applyMask s _, rfl⟩
  · refine ⟨_, _, exec_symApplyMask_of_allowed hp m, exec_symScore_after_applyMask s m, ?_⟩
    exact (Vector.getElem_ofFn (f := fun m => BitVec.ofNat 32 (s.trial m).total) m.isLt).symm

end Sys2Proof.Machine

/-! ## Host accesses -/

namespace Sys2Proof.Machine

/-! ### The engine's turn -/

/-- Settles O4: with BUSY = 1 and no host step left before it, the engine moves. -/
theorem stepRunsLatchedCommand : Obligations.StepRunsLatchedCommand := by
  unfold Obligations.StepRunsLatchedCommand
  intro s i hb hturn hd
  have hmoves : s.engineMoves = true := by
    rw [State.engineMoves, hb]
    rcases hturn with h | h <;> simp [h]
  rw [step, agentStep, if_pos hmoves, engineStep, fetch, hd]

/-- An idle engine with an empty latch agrees with the status (10_state.md R42). -/
theorem engineOK_of_idle {t : State} (hb : t.busy = false) (hl : t.latch = Latch.idle) : EngineOK t := by
  rw [EngineOK, hb]
  exact hl

/-- Engine and status still agree when BUSY, CMD and the latch stay and no error is added. -/
theorem EngineOK.of_eq {s t : State} (hs : EngineOK s) (hb : t.busy = s.busy) (hl : t.latch = s.latch)
    (hc : t.cmd = s.cmd) (he : s.err = false → t.err = false) : EngineOK t := by
  unfold EngineOK at *
  rw [hb, hl, hc]
  split at hs
  · next hbusy => exact if_pos hbusy ▸ ⟨he hs.1, hs.2⟩
  · next hbusy => exact if_neg hbusy ▸ hs

theorem CommandEnd.engineOK {s t : State} {i : Instr} (h : CommandEnd s i t) : EngineOK t := by
  cases h <;> exact engineOK_of_idle rfl rfl

theorem EngineOK.busRead {s : State} (hs : EngineOK s) (off : BitVec 16) : EngineOK (s.busRead off) := by
  obtain ⟨v, n, e⟩ := State.busRead_env s off
  rw [e]
  exact hs.of_eq rfl rfl rfl id

/-- A write accepts a command, which latches it, or keeps engine and status as they agree (60_exceptions.md R137). -/
theorem EngineOK.busWrite {s : State} (hs : EngineOK s) (off : BitVec 16) (v : Word) : EngineOK (s.busWrite off v) := by
  rcases State.busWrite_cases s off v with e | e | e | e | ⟨j, e⟩ | e <;> rw [e]
  · exact engineOK_of_idle rfl rfl
  · exact hs.of_eq rfl rfl rfl fun he => by simp [State.clearStatus, he]
  · exact hs.of_eq rfl rfl rfl id
  · rcases State.issue_cases s v with ⟨-, he, e'⟩ | ⟨-, e'⟩ <;> rw [e']
    · exact ⟨he, rfl⟩
    · exact hs.of_eq rfl rfl rfl id
  · exact hs.of_eq (by simp) (by simp) (by simp) (by simp)
  · exact hs

/-- Settles O54: a command's end and a reset idle the engine, an acceptance latches what it writes to CMD with ERR = 0, and no
other step writes BUSY, CMD or the latch or sets ERR. -/
theorem stepKeepsEngine : Obligations.StepKeepsEngine := by
  unfold Obligations.StepKeepsEngine
  intro s t hs h
  rcases step_cases h with ⟨-, -, he⟩ | ⟨-, -, rfl⟩ | ⟨-, op, rest, -, ho⟩
  · rcases engineStep_cases s with ⟨i, -, hi⟩ | ⟨_, -, hi⟩
    · exact (exec_commandEnd (hi ▸ he)).engineOK
    · rw [hi] at he
      injection he with he
      exact he ▸ engineOK_of_idle rfl rfl
  · exact hs
  · have hs : EngineOK s.takeOp := hs.of_eq rfl rfl rfl id
    rcases busOp_cases ho with ⟨off, rfl⟩ | ⟨off, v, rfl⟩ | ⟨-, rfl⟩ | rfl
    · exact hs.busRead off
    · exact hs.busWrite off v
    · exact (hs.busRead statusOffset).of_eq rfl rfl rfl id
    · exact engineOK_of_idle rfl rfl

/-! ### Writes -/

theorem takeOp_of_hostTurn {s : State} {op : BusOp} {rest : List BusOp} (h : HostTurn s op rest) :
    s.takeOp = { s with env := s.env.taken rest } := by
  rw [State.takeOp, h.2]
  rfl

/-- A 32-bit write at a multiple of 4 is handled in the host's turn (20_memory.md R46, R51). -/
theorem step_write {s : State} {off : BitVec 16} {v : Word} {rest : List BusOp}
    (h : HostTurn s (.write off .w32 v) rest) (ha : off.toNat % 4 = 0) :
    step s = .next (State.busWrite { s with env := s.env.taken rest } off v) := by
  rw [step_hostTurn h, takeOp_of_hostTurn h]
  simp [busOp, ha]

/-- Settles O41: the write is the issue of a command, accepted or dropped by BUSY and ERR. -/
theorem commandAcceptance : Obligations.CommandAcceptance := by
  unfold Obligations.CommandAcceptance
  intro s w rest h
  have hstep : step s = .next (State.issue { s with env := s.env.taken rest } w) := step_write h rfl
  refine ⟨fun hb he => ?_, fun hbe => ?_⟩
  · rw [State.issue, if_neg (by simp [hb, he])] at hstep
    exact ⟨_, hstep, rfl, rfl, rfl⟩
  · rw [State.issue, if_pos (by simpa using hbe)] at hstep
    exact hstep

/-- Settles O42: a flag ANDed with the complement of the bit written is cleared exactly where that bit is 1. -/
theorem statusWriteClears : Obligations.StatusWriteClears := by
  unfold Obligations.StatusWriteClears
  intro s v rest h
  have clear : ∀ a b : Bool, (a && !b) = if b then false else a := by decide
  have hstep : step s = .next (State.clearStatus { s with env := s.env.taken rest } v) := step_write h rfl
  rw [hstep, State.clearStatus]
  simp only [clear]

theorem flagBit_getLsbD (b : Bool) (i j : Nat) : (flagBit b i).getLsbD j = (decide (j < 32 ∧ j = i) && b) := by
  rw [flagBit, BitVec.getLsbD_shiftLeft, BitVec.getLsbD_setWidth, BitVec.getLsbD_ofBool]
  by_cases hji : j = i
  · simp [hji]
  · have hout : j < i ∨ j - i ≠ 0 := by omega
    rcases hout with h | h <;> simp [h, hji]

/-- INT_EN keeps bits 1, 2 and 3 of what is written (10_state.md R18). -/
theorem IntEn.word_ofWord (v : Word) : (IntEn.ofWord v).word = v &&& 0xE := by
  have mask : ∀ i < 32, (0xE : Word).getLsbD i = (decide (i = 1) || decide (i = 2) || decide (i = 3)) := by decide
  apply BitVec.eq_of_getLsbD_eq
  intro i hi
  rw [IntEn.word, BitVec.getLsbD_or, BitVec.getLsbD_or, flagBit_getLsbD, flagBit_getLsbD, flagBit_getLsbD,
    BitVec.getLsbD_and, mask i hi]
  by_cases h1 : i = 1
  · simp [h1, IntEn.ofWord]
  by_cases h2 : i = 2
  · simp [h2, IntEn.ofWord]
  by_cases h3 : i = 3
  · simp [h3, IntEn.ofWord]
  simp [h1, h2, h3]

/-- Settles O44: each of the four offsets is that of one register, whose write names no other field. -/
theorem argAndIntEnWrites : Obligations.ArgAndIntEnWrites := by
  unfold Obligations.ArgAndIntEnWrites
  intro s v rest
  exact ⟨fun h => step_write h rfl, fun h => step_write h rfl, fun h => step_write h rfl,
    fun h => ⟨IntEn.ofWord v, step_write h rfl, IntEn.word_ofWord v⟩⟩

/-! ### The register map -/

/-- The number a register's fields make; a length is not cut to the word. -/
def State.regNumber (s : State) : Reg → Nat
  | .bsLen i => s.len i
  | r => (s.regValue r).toNat

theorem registerMap_lookup : ∀ p ∈ registerMap, p.1 < 0x2000 ∧ registerMap.lookup p.1 = some p.2 := by decide

theorem registerMap_exact : ∀ p ∈ registerMap, (p.2.alwaysExact = true ↔ p.1 ∈ exactOffsets) := by decide

theorem registerOffsets_eq : registerOffsets = registerMap.map Prod.fst := by decide

theorem target_of_mem {off : BitVec 16} {o : Nat} {r : Reg} (hm : (o, r) ∈ registerMap) (ho : off.toNat = o) :
    target off = .reg r := by
  obtain ⟨hlt, hl⟩ := registerMap_lookup _ hm
  rw [target, ho, if_pos hlt, hl]

theorem target_window {off : BitVec 16} (h1 : 0x2000 ≤ off.toNat) (h2 : off.toNat < 0xE000) :
    ∃ g row word, target off = .window g row word :=
  ⟨_, _, _, by rw [target, if_neg (by omega), if_pos h2]⟩

theorem Phase.value_toNat (p : Phase) : p.value.toNat = phaseNumber p := by cases p <;> rfl

/-- STATUS has each flag at its bit and PHASE above them (10_state.md R17). -/
theorem State.statusWord_toNat (s : State) : s.statusWord.toNat =
    s.busy.toNat + 2 * s.done.toNat + 4 * s.err.toNat + 8 * s.drop.toNat + 16 * phaseNumber s.phase := by
  have fields : ∀ (b d e r : Bool) (p : BitVec 3),
      (flagBit b 0 ||| flagBit d 1 ||| flagBit e 2 ||| flagBit r 3 ||| p.setWidth 32 <<< 4).toNat =
        b.toNat + 2 * d.toNat + 4 * e.toNat + 8 * r.toNat + 16 * p.toNat := by decide
  rw [State.statusWord, fields, Phase.value_toNat]

theorem IntEn.word_toNat (e : IntEn) : e.word.toNat = 2 * e.done.toNat + 4 * e.err.toNat + 8 * e.drop.toNat := by
  have fields : ∀ d e r : Bool,
      (flagBit d 1 ||| flagBit e 2 ||| flagBit r 3).toNat = 2 * d.toNat + 4 * e.toNat + 8 * r.toNat := by decide
  exact fields _ _ _

theorem ErrCode.value_toNat (c : ErrCode) : c.value.toNat = errNumber c := by
  cases c <;> rfl

theorem Level.index_toNat (lvl : Level) : lvl.index.toNat = levelNumber lvl := by
  cases lvl <;> rfl

theorem Point.word_toNat (p : Point) : p.word.toNat = pointNumber p := by
  have hx := p.x.isLt
  have hy := p.y.isLt
  have hshift : p.y.toNat <<< 8 < 2 ^ 32 := by rw [Nat.shiftLeft_eq]; omega
  rw [Point.word, pointNumber, BitVec.toNat_or, BitVec.toNat_shiftLeft, BitVec.toNat_setWidth_of_le (by decide),
    BitVec.toNat_setWidth_of_le (by decide), Nat.mod_eq_of_lt hshift, Nat.or_comm, ← Nat.shiftLeft_add_eq_or_of_lt hx,
    Nat.shiftLeft_eq]
  omega

/-- registerReads lists the offsets of the register map with the numbers of their registers (10_state.md R14 to R39). -/
theorem registerReads_eq (s : State) : registerReads s = registerMap.map fun p => (p.1, s.regNumber p.2) := by
  have narrow : ∀ {w : Nat} (x : BitVec w), w ≤ 32 → (x.setWidth 32).toNat = x.toNat :=
    fun _ h => BitVec.toNat_setWidth_of_le h
  simp (disch := decide) only [registerReads, registerMap, State.regNumber, State.regValue, State.statusWord_toNat,
    IntEn.word_toNat, narrow, ErrCode.value_toNat, Level.index_toNat, Point.word_toNat, List.map_append, List.map_cons,
    List.map_nil]
  rfl

theorem mem_registerReads {s : State} {o n : Nat} :
    (o, n) ∈ registerReads s ↔ ∃ r, (o, r) ∈ registerMap ∧ s.regNumber r = n := by
  rw [registerReads_eq, List.mem_map]
  constructor
  · rintro ⟨⟨o', r⟩, hm, e⟩
    cases e
    exact ⟨r, hm, rfl⟩
  · rintro ⟨r, hm, rfl⟩
    exact ⟨(o, r), hm, rfl⟩

/-- An exact register reads its number; a length does when it fits the word. -/
theorem State.regValue_toNat (s : State) (r : Reg) (h : ∀ i, r = .bsLen i → s.len i < 2 ^ 32) :
    (s.regValue r).toNat = s.regNumber r := by
  cases r with
  | bsLen i => exact Nat.mod_eq_of_lt (h i rfl)
  | _ => rfl

/-! ### Reads -/

/-- A 32-bit read at a multiple of 4 is handled in the host's turn (20_memory.md R46). -/
theorem step_read {s : State} {off : BitVec 16} {rest : List BusOp} (h : HostTurn s (.read off .w32) rest)
    (ha : off.toNat % 4 = 0) : step s = .next (State.busRead { s with env := s.env.taken rest } off) := by
  rw [step_hostTurn h, takeOp_of_hostTurn h]
  simp [busOp, ha]

/-- What is read does not depend on the environment. -/
theorem State.readValue_env (s : State) (e : Env) (off : BitVec 16) :
    State.readValue { s with env := e } off = s.readValue off := rfl

theorem step_read_exact {s : State} {off : BitVec 16} {rest : List BusOp} {v : Word}
    (h : HostTurn s (.read off .w32) rest) (ha : off.toNat % 4 = 0) (hv : s.readValue off = some v) :
    step s = .next { s with env := s.env.answered rest off v } := by
  rw [step_read h ha, State.busRead, State.readValue_env, hv]
  rfl

theorem step_read_free {s : State} {off : BitVec 16} {rest : List BusOp} (h : HostTurn s (.read off .w32) rest)
    (ha : off.toNat % 4 = 0) (hv : s.readValue off = none) :
    step s = .next
      { s with env := { s.env.answered rest off (Config.freeRead s.env.draws) with draws := s.env.draws + 1 } } := by
  rw [step_read h ha, State.busRead, State.readValue_env, hv]
  rfl

theorem State.readValue_reg {s : State} {off : BitVec 16} {r : Reg} (ht : target off = .reg r) :
    s.readValue off = if s.busy && !r.alwaysExact then none else some (s.regValue r) := by
  rw [State.readValue, ht]

theorem State.readValue_window {s : State} {off : BitVec 16} (h1 : 0x2000 ≤ off.toNat) (h2 : off.toNat < 0xE000)
    (hs : s.busy = true ∨ s.phase = .empty) : s.readValue off = none := by
  obtain ⟨g, row, word, ht⟩ := target_window h1 h2
  rw [State.readValue, ht]
  exact if_pos (by simpa using hs)

theorem State.statusWord_flags (s : State) : s.statusWord.getLsbD 0 = s.busy ∧ s.statusWord.getLsbD 1 = s.done ∧
    s.statusWord.getLsbD 2 = s.err ∧ s.statusWord.getLsbD 3 = s.drop := by
  simp only [State.statusWord, BitVec.getLsbD_or, flagBit_getLsbD, BitVec.getLsbD_shiftLeft]
  simp

/-- Settles O47: STATUS reads exactly in every state, as its flags and phase number say. -/
theorem statusReadLayout : Obligations.StatusReadLayout := by
  unfold Obligations.StatusReadLayout
  intro s rest h
  have hv : s.readValue 0x008 = some s.statusWord :=
    (State.readValue_reg (r := .status) rfl).trans (if_neg (by simp [Reg.alwaysExact]))
  have hphase : s.statusWord.toNat / 16 = phaseNumber s.phase := by
    rw [State.statusWord_toNat]
    have := s.busy.toNat_le
    have := s.done.toNat_le
    have := s.err.toNat_le
    have := s.drop.toNat_le
    omega
  obtain ⟨busy, done, err, drop⟩ := s.statusWord_flags
  refine ⟨s.statusWord, step_read_exact h rfl hv, busy, done, err, drop, hphase.trans ?_⟩
  cases s.phase <;> rfl

/-- Settles O50: an entry of registerReads is one of the register map, and an idle block reads it exactly. -/
theorem resultRegistersRead : Obligations.ResultRegistersRead := by
  unfold Obligations.ResultRegistersRead
  intro s off n rest hb hn hlen h
  obtain ⟨r, hm, rfl⟩ := mem_registerReads.mp hn
  have haligned : ∀ p ∈ registerMap, p.1 % 4 = 0 := by decide
  have hlenOffset : ∀ p ∈ registerMap, ∀ i, p.2 = .bsLen i → p.1 ∈ [0x030, 0x034, 0x038, 0x03C] := by decide
  have hv : s.readValue off = some (s.regValue r) := by
    rw [State.readValue_reg (target_of_mem hm rfl), hb]
    rfl
  refine ⟨_, step_read_exact h (haligned _ hm) hv, s.regValue_toNat r ?_⟩
  rintro i rfl
  exact (hlen (hlenOffset _ hm i rfl)).trans_lt (by decide)

/-- Settles O49: the exact offsets are those of the always exact registers; every other offset that is not reserved is
a register that is not, or a window word. -/
theorem readsWhileBusy : Obligations.ReadsWhileBusy := by
  unfold Obligations.ReadsWhileBusy
  intro s off rest ha hb h
  refine ⟨fun n hex hn => ?exact, fun hres hnex => step_read_free h ha ?free⟩
  case exact =>
    obtain ⟨r, hm, rfl⟩ := mem_registerReads.mp hn
    have hr : r.alwaysExact = true := (registerMap_exact _ hm).mpr hex
    have hv : s.readValue off = some (s.regValue r) := by
      rw [State.readValue_reg (target_of_mem hm rfl), hr]
      exact if_neg (by simp)
    refine ⟨_, step_read_exact h ha hv, s.regValue_toNat r ?_⟩
    rintro i rfl
    cases hr
  case free =>
    by_cases hlt : off.toNat < 0x2000
    · have hmem : off.toNat ∈ registerOffsets := by
        by_contra hne
        exact hres (.inl ⟨hlt, hne⟩)
      rw [registerOffsets_eq, List.mem_map] at hmem
      obtain ⟨⟨o, r⟩, hm, ho⟩ := hmem
      have hr : r.alwaysExact ≠ true := fun hr => hnex (ho ▸ (registerMap_exact _ hm).mp hr)
      rw [State.readValue_reg (target_of_mem hm ho.symm), hb]
      exact if_pos (by simpa using hr)
    · exact State.readValue_window (by omega) (Nat.lt_of_not_le fun hge => hres (.inr hge)) (.inl hb)

/-! ### Reset -/

/-- Settles O43: both resets are resetBlock; the reads after it are those of State.reset, register by register. -/
theorem resetInAnyState : Obligations.ResetInAnyState := by
  unfold Obligations.ResetInAnyState
  refine ⟨fun s v rest h => ?ctrl, fun s rest h => ?pulse, ?registers, fun off h1 h2 => ?windows, rfl⟩
  case ctrl =>
    have hstep : step s = .next (if v.getLsbD 0 then State.resetBlock { s with env := s.env.taken rest }
        else { s with env := s.env.taken rest }) := step_write h rfl
    rw [hstep]
    rfl
  case pulse =>
    rw [step_hostTurn h, takeOp_of_hostTurn h]
    rfl
  case registers => decide
  case windows => exact State.readValue_window h1 h2 (.inr rfl)

end Sys2Proof.Machine

/-! ## What a command does not read -/

namespace Sys2Proof.Machine

/-- An outcome with its next state changed. -/
def mapNext (f : State → State) : Host.Outcome State Fault Refusal → Host.Outcome State Fault Refusal
  | .next s => .next (f s)
  | .fault r => .fault r
  | .refused r => .refused r

theorem mapNext_ite (f : State → State) {c : Prop} [Decidable c] (o o' : Host.Outcome State Fault Refusal) :
    mapNext f (if c then o else o') = if c then mapNext f o else mapNext f o' := apply_ite _ _ _ _

/-- The change f is in state that bitstream, GF and RS commands neither read nor write. -/
structure Untouched (f : State → State) : Prop where
  latch : ∀ s, (f s).latch = s.latch
  bufs : ∀ s, (f s).bufs = s.bufs
  setBuf : ∀ s i b, ((f s).setBuf i b).finish = mapNext f (s.setBuf i b).finish
  setResult : ∀ s v, ((f s).setResult v).finish = mapNext f (s.setResult v).finish
  finish : ∀ s, (f s).finish = mapNext f s.finish
  fail : ∀ s c, (f s).fail c = mapNext f (s.fail c)

section
variable {f : State → State} (hf : Untouched f) (s : State)
include hf

theorem Untouched.op0 : (f s).op0 = s.op0 := by rw [State.op0, hf.latch, State.op0]

theorem Untouched.op1 : (f s).op1 = s.op1 := by rw [State.op1, hf.latch, State.op1]

theorem Untouched.op2 : (f s).op2 = s.op2 := by rw [State.op2, hf.latch, State.op2]

theorem Untouched.buf (i : BufIdx) : (f s).buf i = s.buf i := by rw [State.buf, hf.bufs, State.buf]

theorem Untouched.len (i : BufIdx) : (f s).len i = s.len i := by rw [State.len, hf.buf, State.len]

theorem Untouched.fits (i : BufIdx) (n : Nat) : (f s).fits i n = s.fits i n := by
  rw [State.fits, hf.len, State.fits]

theorem Untouched.appendBuf (i : BufIdx) (b : Bits) :
    ((f s).appendBuf i b).finish = mapNext f (s.appendBuf i b).finish := by
  rw [State.appendBuf, hf.setBuf, hf.buf, State.appendBuf]

end

/-- The commands of the symbol and mask families (30_encoding.md R62). -/
def symbolCommand : Instr → Bool
  | .symInit | .symFunction | .symPlace _ | .symApplyMask _ | .symScore | .symSelectMask => true
  | _ => false

/-- A control, bitstream, GF or RS command does the same after the change. -/
theorem Untouched.exec {f : State → State} (hf : Untouched f) {i : Instr} (hi : symbolCommand i = false) (s : State) :
    exec i (f s) = mapNext f (exec i s) := by
  cases i with
  | nop => exact hf.finish s
  | bsClear sd => exact hf.setBuf s sd []
  | bsAppendBits sd n =>
    simp only [Machine.exec, execBsAppendBits, mapNext_ite, hf.fits, hf.latch, hf.fail, hf.appendBuf]
  | bsAppendBools sd b =>
    simp only [Machine.exec, execBsAppendBools, mapNext_ite, hf.fits, hf.op0, hf.fail, hf.appendBuf]
  | bsAppend sd ss =>
    simp only [Machine.exec, execBsAppend, mapNext_ite, hf.fits, hf.len, hf.buf, hf.fail, hf.appendBuf]
  | bsSubstr sd ss =>
    simp only [Machine.exec, execBsSubstr, mapNext_ite, hf.op0, hf.op1, hf.len, hf.buf, hf.fail, hf.setBuf]
  | bsByteAt ss =>
    simp only [Machine.exec, execBsByteAt, mapNext_ite, hf.op0, hf.len, hf.buf, hf.fail, hf.setResult]
  | gfMul =>
    simp only [Machine.exec, execGfMul, hf.latch, hf.fail, hf.setResult]
    cases byteOperand s.latch.arg0 <;> cases byteOperand s.latch.arg1 <;> rfl
  | gfExp => simp only [Machine.exec, execGfExp, mapNext_ite, hf.op0, hf.fail, hf.setResult]
  | gfLog =>
    simp only [Machine.exec, execGfLog, hf.latch, hf.fail, hf.setResult]
    cases byteOperand s.latch.arg0 with
    | none => rfl
    | some a => exact (mapNext_ite f _ _).symm
  | rsGenpoly sd => simp only [Machine.exec, execRsGenpoly, mapNext_ite, hf.op0, hf.fits, hf.fail, hf.appendBuf]
  | rsEncode sd ss =>
    simp only [Machine.exec, execRsEncode, mapNext_ite, hf.op0, hf.op1, hf.op2, hf.len, hf.buf, hf.fits, hf.fail,
      hf.appendBuf]
  | symInit => cases hi
  | symFunction => cases hi
  | symPlace ss => cases hi
  | symApplyMask m => cases hi
  | symScore => cases hi
  | symSelectMask => cases hi

/-! ### The ARG registers (10_state.md R22, 20_memory.md R56) -/

/-- The state with other values in ARG0 to ARG2. -/
def State.withArgs (a b c : Word) (s : State) : State := { s with arg0 := a, arg1 := b, arg2 := c }

theorem untouched_withArgs (a b c : Word) : Untouched (State.withArgs a b c) :=
  ⟨fun _ => rfl, fun _ => rfl, fun _ _ _ => rfl, fun _ _ => rfl, fun _ => rfl, fun _ _ => rfl⟩

/-- A command reads the latched operands, not the ARG registers. -/
theorem exec_withArgs (i : Instr) (s : State) (a b c : Word) :
    exec i (s.withArgs a b c) = mapNext (State.withArgs a b c) (exec i s) := by
  cases hi : symbolCommand i with
  | false => exact (untouched_withArgs a b c).exec hi s
  | true =>
    cases i with
    | symInit =>
      simp only [exec, execSymInit, (untouched_withArgs a b c).latch]
      cases versionOperand s.latch.arg0 <;> cases levelOperand s.latch.arg1 <;> rfl
    | symFunction => simp only [exec, execSymFunction, mapNext_ite]; rfl
    | symPlace ss => simp only [exec, execSymPlace, mapNext_ite]; rfl
    | symApplyMask m => simp only [exec, execSymApplyMask, mapNext_ite]; rfl
    | symScore => simp only [exec, execSymScore, mapNext_ite]; rfl
    | symSelectMask => simp only [exec, execSymSelectMask, mapNext_ite]; rfl
    | _ => cases hi

/-- Settles O9: no command reads or writes the ARG registers. -/
theorem runningCommandIgnoresArgWrites : Obligations.RunningCommandIgnoresArgWrites := by
  unfold Obligations.RunningCommandIgnoresArgWrites
  intro i s t a b c h
  exact (exec_withArgs i s a b c).trans (congrArg (mapNext (State.withArgs a b c)) h)

/-! ### The grids in phase EMPTY (70_reset_and_hazards.md R149) -/

/-- The state with other grids. -/
def State.withGrids (g : Grids) (s : State) : State := { s with grids := g }

theorem untouched_withGrids (g : Grids) : Untouched (State.withGrids g) :=
  ⟨fun _ => rfl, fun _ => rfl, fun _ _ _ => rfl, fun _ _ => rfl, fun _ => rfl, fun _ _ => rfl⟩

/-- What happens with other grids: the same, and the grids are left as they are or written alike. -/
abbrev SameBut (g : Grids) (o' o : Host.Outcome State Fault Refusal) : Prop :=
  o' = mapNext (State.withGrids g) o ∨ o' = o

/-- In phase EMPTY a command leaves the grids unread; SYM_INIT overwrites them. -/
theorem exec_withGrids {s : State} (hp : s.phase = .empty) (i : Instr) (g : Grids) :
    SameBut g (exec i (s.withGrids g)) (exec i s) := by
  have hp' : (s.withGrids g).phase = .empty := hp
  cases hi : symbolCommand i with
  | false => exact .inl ((untouched_withGrids g).exec hi s)
  | true =>
    cases i with
    | symInit =>
      simp only [exec, execSymInit, (untouched_withGrids g).latch]
      cases versionOperand s.latch.arg0 with
      | none => exact .inl rfl
      | some v =>
        cases levelOperand s.latch.arg1 with
        | none => exact .inl rfl
        | some lvl => exact .inr rfl
    | symFunction => exact .inl (by simp [exec, execSymFunction, hp, hp', (untouched_withGrids g).fail])
    | symPlace ss => exact .inl (by simp [exec, execSymPlace, hp, hp', (untouched_withGrids g).fail])
    | symApplyMask m =>
      exact .inl (by simp [exec, execSymApplyMask, hp, hp', Phase.allowsMask, (untouched_withGrids g).fail])
    | symScore => exact .inl (by simp [exec, execSymScore, hp, hp', Phase.allowsScore, (untouched_withGrids g).fail])
    | symSelectMask =>
      exact .inl (by simp [exec, execSymSelectMask, hp, hp', Phase.allowsMask, (untouched_withGrids g).fail])
    | _ => cases hi

theorem engineStep_withGrids {s : State} (hp : s.phase = .empty) (g : Grids) :
    SameBut g (engineStep (s.withGrids g)) (engineStep s) := by
  unfold engineStep fetch
  rw [(untouched_withGrids g).latch]
  cases decode s.latch.word with
  | ok i => exact exec_withGrids hp i g
  | error e => exact .inl rfl

/-- Before the first SYM_INIT no read shows a grid (20_memory.md R49). -/
theorem readValue_withGrids {s : State} (hp : s.phase = .empty) (g : Grids) (off : BitVec 16) :
    (s.withGrids g).readValue off = s.readValue off := by
  have hp' : (s.withGrids g).phase = .empty := hp
  unfold State.readValue
  cases target off with
  | reg r => cases r <;> rfl
  | window n row word => simp [hp, hp']
  | reserved => rfl

theorem busRead_withGrids {s : State} (hp : s.phase = .empty) (g : Grids) (off : BitVec 16) :
    (s.withGrids g).busRead off = (s.busRead off).withGrids g := by
  unfold State.busRead
  rw [readValue_withGrids hp]
  cases s.readValue off <;> rfl

theorem issue_withGrids (s : State) (g : Grids) (w : Word) :
    (s.withGrids g).issue w = (s.issue w).withGrids g := by
  simp only [State.issue, apply_ite (State.withGrids g)]
  rfl

theorem setArg_withGrids (s : State) (g : Grids) (j : Fin 3) (v : Word) :
    (s.withGrids g).setArg j v = (s.setArg j v).withGrids g :=
  match j with | 0 => rfl | 1 => rfl | 2 => rfl

/-- A write leaves the grids unread; a reset overwrites them. -/
theorem busWrite_withGrids (s : State) (g : Grids) (off : BitVec 16) (v : Word) :
    (s.withGrids g).busWrite off v = (s.busWrite off v).withGrids g ∨
      (s.withGrids g).busWrite off v = s.busWrite off v := by
  unfold State.busWrite
  split
  · by_cases hv : v.getLsbD 0 = true
    · rw [if_pos hv, if_pos hv]
      exact .inr rfl
    · rw [if_neg hv, if_neg hv]
      exact .inl rfl
  · exact .inl rfl
  · exact .inl rfl
  · exact .inl (issue_withGrids s g v)
  · exact .inl (setArg_withGrids s g _ v)
  · exact .inl rfl
  · exact .inl rfl
  · exact .inl rfl

/-- A refusal by the access alone is the same with other grids. -/
theorem sameBut_check {g : Grids} {c : Prop} [Decidable c] {r : Refusal} {o' o : Host.Outcome State Fault Refusal}
    (h : SameBut g o' o) : SameBut g (if c then .refused r else o') (if c then .refused r else o) := by
  by_cases hc : c
  · rw [if_pos hc, if_pos hc]
    exact .inl rfl
  · rw [if_neg hc, if_neg hc]
    exact h

theorem sameBut_next {g : Grids} {t' t : State} (h : t' = t.withGrids g ∨ t' = t) :
    SameBut g (.next t') (.next t) :=
  h.imp (congrArg _) (congrArg _)

theorem busOp_withGrids {s : State} (hp : s.phase = .empty) (g : Grids) (op : BusOp) :
    SameBut g (busOp op (s.withGrids g)) (busOp op s) := by
  cases op with
  | read off width => exact sameBut_check (sameBut_check (sameBut_next (.inl (busRead_withGrids hp g off))))
  | write off width v => exact sameBut_check (sameBut_check (sameBut_next (busWrite_withGrids s g off v)))
  | writeLast off => exact sameBut_check (sameBut_next (busWrite_withGrids s g off s.env.lastRead))
  | wait =>
    refine .inl ?_
    simp only [busOp, busRead_withGrids hp, mapNext_ite]
    rfl
  | hwReset => exact .inr rfl

theorem hostStep_withGrids {s : State} (hp : s.phase = .empty) (g : Grids) :
    SameBut g (hostStep (s.withGrids g)) (hostStep s) := by
  have henv : (s.withGrids g).env = s.env := rfl
  unfold hostStep
  rw [henv]
  cases s.env.inbox with
  | nil => exact .inl rfl
  | cons op rest => exact busOp_withGrids (s := s.takeOp) hp g op

theorem step_withGrids {s : State} (hp : s.phase = .empty) (g : Grids) :
    SameBut g (step (s.withGrids g)) (step s) := by
  have hmoves : (s.withGrids g).engineMoves = s.engineMoves := rfl
  unfold step agentStep
  rw [hmoves]
  cases s.engineMoves with
  | true => exact engineStep_withGrids hp g
  | false => exact hostStep_withGrids hp g

/-- Settles O60: no step in phase EMPTY reads a grid; SYM_INIT and a reset overwrite all six. -/
theorem unspecifiedGridsUnobservable : Obligations.UnspecifiedGridsUnobservable := by
  unfold Obligations.UnspecifiedGridsUnobservable
  intro s t g hp h
  rcases step_withGrids hp g with e | e
  · exact ⟨_, e.trans (congrArg (mapNext (State.withGrids g)) h), .inl rfl⟩
  · exact ⟨t, e.trans h, .inr rfl⟩

end Sys2Proof.Machine

/-! ## The address map and the accesses it ignores or refuses (20_memory.md R44 to R51) -/

namespace Sys2Proof.Machine

/-! ### What stands at an offset -/

theorem target_eq_reg {off : BitVec 16} {r : Reg} (h : target off = .reg r) : (off.toNat, r) ∈ registerMap := by
  unfold target at h
  split at h
  · split at h
    · next hl =>
      cases h
      obtain ⟨_, _, e, -⟩ := List.lookup_eq_some_iff.mp hl
      simp [e]
    · cases h
  · split at h <;> cases h

/-- Nothing stands at an offset below the windows without a register, nor at one above them (R44, R48). -/
theorem target_of_reserved {off : BitVec 16} (h : ReservedOffset off) : target off = .reserved := by
  cases ht : target off with
  | reserved => rfl
  | reg r =>
    have hm := target_eq_reg ht
    have hlt := (registerMap_lookup _ hm).1
    have hreg : off.toNat ∈ registerOffsets := registerOffsets_eq ▸ List.mem_map_of_mem hm
    rcases h with ⟨-, hn⟩ | hge
    · exact absurd hreg hn
    · omega
  | window g row word =>
    unfold target at ht
    rcases h with ⟨hlt, -⟩ | hge
    · rw [if_pos hlt] at ht
      split at ht <;> cases ht
    · rw [if_neg (by omega), if_neg (by omega)] at ht
      cases ht

theorem windowBases_eq (g : Grids) :
    windowBases g = (List.range 6).map fun n => (0x2000 * (n + 1), g.get (windowGrid n)) := rfl

/-- Word w of row Y of window n stands 32·Y + 4·w past the window's base (R49). -/
theorem target_windowOffset {n Y w : Nat} (hn : n < 6) (hY : Y < 256) (hw : w < 8) :
    target (BitVec.ofNat 16 (0x2000 * (n + 1) + 32 * Y + 4 * w)) = .window (windowGrid n) Y w := by
  have ho : (BitVec.ofNat 16 (0x2000 * (n + 1) + 32 * Y + 4 * w)).toNat = 0x2000 * (n + 1) + 32 * Y + 4 * w :=
    Nat.mod_eq_of_lt (by omega)
  have hwindow : (0x2000 * (n + 1) + 32 * Y + 4 * w - 0x2000) / 0x2000 = n := by omega
  have hrow : (0x2000 * (n + 1) + 32 * Y + 4 * w) % 0x2000 / 32 = Y := by omega
  have hword : (0x2000 * (n + 1) + 32 * Y + 4 * w) % 32 / 4 = w := by omega
  rw [target, ho, if_neg (by omega), if_pos (by omega), hwindow, hrow, hword]

/-! ### Writes that are ignored -/

/-- A write of the register has an effect (R51). -/
def Reg.writable : Reg → Bool
  | .ctrl | .status | .intEn | .cmd | .arg _ => true
  | _ => false

theorem registerMap_writable : ∀ p ∈ registerMap, p.2.writable = true → p.1 ∈ writableOffsets := by decide

theorem State.busWrite_readOnly (s : State) {off : BitVec 16} {r : Reg} (v : Word) (ht : target off = .reg r)
    (hr : r.writable = false) : s.busWrite off v = s := by
  rw [State.busWrite, ht]
  cases r with
  | ctrl | status | intEn | cmd | arg j => cases hr
  | _ => rfl

theorem State.busWrite_ignored (s : State) {off : BitVec 16} (v : Word) (h : off.toNat ∉ writableOffsets) :
    s.busWrite off v = s := by
  cases ht : target off with
  | reg r =>
    have hr : ¬ r.writable = true := fun hr => h (registerMap_writable _ (target_eq_reg ht) hr)
    exact s.busWrite_readOnly v ht (by simpa using hr)
  | window g row word => rw [State.busWrite, ht]
  | reserved => rw [State.busWrite, ht]

/-- Settles O45: the writable registers stand at the writable offsets, and no other target is written. -/
theorem otherWritesIgnored : Obligations.OtherWritesIgnored := by
  unfold Obligations.OtherWritesIgnored
  intro s off v rest ha hoff h
  rw [step_write h ha, State.busWrite_ignored _ v hoff]

/-! ### Reads -/

/-- Settles O46: a read writes only the answers and the draw counter, and the answer at a reserved offset is exact. -/
theorem readsHaveNoSideEffects : Obligations.ReadsHaveNoSideEffects := by
  unfold Obligations.ReadsHaveNoSideEffects
  intro s off rest ha h
  refine ⟨?anyOffset, fun hres => step_read_exact h ha ?reserved⟩
  case anyOffset =>
    obtain ⟨v, n, e⟩ := State.busRead_env { s with env := s.env.taken rest } off
    exact ⟨v, n, (step_read h ha).trans (congrArg _ e)⟩
  case reserved => rw [State.readValue, target_of_reserved hres]

/-- With no command in flight and a symbol allocated a window word is exact (R49). -/
theorem State.readValue_windowWord {s : State} {off : BitVec 16} {g : GridName} {row word : Nat}
    (ht : target off = .window g row word) (hb : s.busy = false) (hp : s.phase ≠ .empty) :
    s.readValue off = some ((s.grids.get g).windowWord row word) := by
  rw [State.readValue, ht]
  exact if_neg (by simp [hb, hp])

/-- Outside the 185 columns and rows a grid reads light (R49). -/
theorem Grid.read_eq_ite (g : Grid) (X Y : Nat) : g.read X Y = if X < 185 ∧ Y < 185 then g.read X Y else false := by
  split
  · rfl
  · next hout =>
    rcases Nat.lt_or_ge X 185 with hX | hX
    · exact g.read_of_row_ge (Nat.le_of_not_lt fun hY => hout ⟨hX, hY⟩)
    · exact g.read_of_col_ge hX

/-- Settles O48: the offset is that of word w of row Y of the grid's window, whose bits are modules of that row. -/
theorem windowReadsGrid : Obligations.WindowReadsGrid := by
  unfold Obligations.WindowReadsGrid
  intro s wg Y w rest hwg hY hw hb hp h
  rw [windowBases_eq, List.mem_map] at hwg
  obtain ⟨n, hn, rfl⟩ := hwg
  rw [List.mem_range] at hn
  have ha : (BitVec.ofNat 16 (0x2000 * (n + 1) + 32 * Y + 4 * w)).toNat % 4 = 0 := by
    rw [BitVec.toNat_ofNat]
    omega
  refine ⟨_, step_read_exact h ha (State.readValue_windowWord (target_windowOffset hn hY hw) hb hp), fun b hb32 => ?_⟩
  rw [Grid.windowWord_getLsbD, decide_eq_true hb32, Bool.true_and]
  exact Grid.read_eq_ite _ _ _

/-! ### Accesses that are refused (R46) -/

/-- Checks in a row refuse when what passes the first is refused by the rest. -/
theorem refused_of_check {c : Prop} [Decidable c] {r : Refusal} {o : Host.Outcome State Fault Refusal}
    (h : ¬ c → ∃ r', o = .refused r') : ∃ r', (if c then .refused r else o) = .refused r' := by
  by_cases hc : c
  · exact ⟨r, if_pos hc⟩
  · rw [if_neg hc]
    exact h hc

theorem busOp_undefined {op : BusOp} (s : State) (h : op.defined = false) : ∃ r, busOp op s = .refused r := by
  cases op with
  | read off width =>
    exact refused_of_check fun hw => refused_of_check fun ha => by simp_all [BusOp.defined]
  | write off width v =>
    exact refused_of_check fun hw => refused_of_check fun ha => by simp_all [BusOp.defined]
  | writeLast off => exact refused_of_check fun ha => by simp_all [BusOp.defined]
  | wait => cases h
  | hwReset => cases h

/-- Settles O52: an access that passes both checks, of the width and of the alignment, is a defined one. -/
theorem subwordAndMisalignedRefused : Obligations.SubwordAndMisalignedRefused := by
  unfold Obligations.SubwordAndMisalignedRefused
  intro s op rest hdef h
  rw [step_hostTurn h]
  exact busOp_undefined s.takeOp hdef

end Sys2Proof.Machine

/-! ## Command words (30_encoding.md R58 to R63) -/

namespace Sys2Proof

/-! ### The fields of a word (R58) -/

theorem wordField_eq (v : Word) (lo len : Nat) : wordField v lo len = v.toNat / 2 ^ lo % 2 ^ len := by
  rw [wordField, BitVec.toNat_ushiftRight, Nat.shiftRight_eq_div_pow]

theorem wordField_lt (v : Word) (lo len : Nat) : wordField v lo len < 2 ^ len := Nat.mod_lt _ (Nat.two_pow_pos len)

theorem fieldSD_val (w : Word) : (fieldSD w).val = wordField w 8 2 := Nat.mod_eq_of_lt (wordField_lt w 8 2)

theorem fieldSS_val (w : Word) : (fieldSS w).val = wordField w 10 2 := Nat.mod_eq_of_lt (wordField_lt w 10 2)

theorem fieldM_val (w : Word) : (fieldM w).val = wordField w 16 3 := Nat.mod_eq_of_lt (wordField_lt w 16 3)

/-- M is the low three bits of the place of N (R58). -/
theorem fieldM_eq (w : Word) : fieldM w = Fin.ofNat 8 (wordField w 16 6) := by
  apply Fin.ext
  rw [fieldM_val, Fin.val_ofNat, wordField_eq, wordField_eq]
  omega

theorem fieldB_toNat (w : Word) : (fieldB w).toNat = wordField w 12 1 := by
  rw [fieldB, wordField_eq, BitVec.getLsbD, Nat.toNat_testBit, pow_one]

theorem fieldN_lt (w : Word) : fieldN w < 64 := wordField_lt w 16 6

/-- A field put back at its place is the word under the field's mask (R60). -/
theorem ofNat_wordField (v : Word) (lo len : Nat) :
    BitVec.ofNat 32 (wordField v lo len * 2 ^ lo) = v &&& BitVec.ofNat 32 ((2 ^ len - 1) * 2 ^ lo) := by
  apply BitVec.eq_of_getLsbD_eq
  intro i hi
  simp only [BitVec.getLsbD_and, BitVec.getLsbD_ofNat, hi, wordField_eq, Nat.testBit_mul_two_pow,
    Nat.testBit_mod_two_pow, Nat.testBit_div_two_pow, Nat.testBit_two_pow_sub_one, decide_true, Bool.true_and]
  by_cases hlo : lo ≤ i
  · rw [Nat.sub_add_cancel hlo, BitVec.getLsbD]
    simp [hlo, Bool.and_comm]
  · simp [hlo]

theorem ofNat_fieldSD (w : Word) : BitVec.ofNat 32 (fieldSD w * 2 ^ 8) = w &&& 0x300 := by
  rw [fieldSD_val, ofNat_wordField]; rfl

theorem ofNat_fieldSS (w : Word) : BitVec.ofNat 32 (fieldSS w * 2 ^ 10) = w &&& 0xC00 := by
  rw [fieldSS_val, ofNat_wordField]; rfl

theorem ofNat_fieldB (w : Word) : BitVec.ofNat 32 ((fieldB w).toNat * 2 ^ 12) = w &&& 0x1000 := by
  rw [fieldB_toNat, ofNat_wordField]; rfl

theorem ofNat_fieldN (w : Word) : BitVec.ofNat 32 (fieldN w * 2 ^ 16) = w &&& 0x3F0000 := ofNat_wordField w 16 6

theorem ofNat_fieldM (w : Word) : BitVec.ofNat 32 (fieldM w * 2 ^ 16) = w &&& 0x70000 := by
  rw [fieldM_val, ofNat_wordField]; rfl

/-! ### A word from its fields -/

theorem or_mul_two_pow {a k : Nat} (c : Nat) (ha : a < 2 ^ k) : a ||| c * 2 ^ k = a + c * 2 ^ k := by
  rw [Nat.mul_comm, Nat.or_comm, ← Nat.two_pow_add_eq_or_of_lt ha, Nat.add_comm]

section
variable {op sd ss b n : Nat} (hop : op < 2 ^ 8) (hsd : sd < 2 ^ 2) (hss : ss < 2 ^ 2) (hb : b < 2 ^ 1) (hn : n < 2 ^ 6)
include hop hsd hss hb

/-- The fields of R58 do not overlap, so their sum is their union. -/
theorem commandWord_eq_or : commandWord op sd ss b n =
    BitVec.ofNat 32 op ||| BitVec.ofNat 32 (sd * 2 ^ 8) ||| BitVec.ofNat 32 (ss * 2 ^ 10) |||
      BitVec.ofNat 32 (b * 2 ^ 12) ||| BitVec.ofNat 32 (n * 2 ^ 16) := by
  rw [commandWord, ← BitVec.ofNat_or, ← BitVec.ofNat_or, ← BitVec.ofNat_or, ← BitVec.ofNat_or,
    or_mul_two_pow sd hop, or_mul_two_pow ss (by omega), or_mul_two_pow b (by omega), or_mul_two_pow n (by omega)]

include hn

theorem commandWord_toNat :
    (commandWord op sd ss b n).toNat = op + sd * 2 ^ 8 + ss * 2 ^ 10 + b * 2 ^ 12 + n * 2 ^ 16 := by
  rw [commandWord, BitVec.toNat_ofNat]
  omega

/-- The fields of a command word are those it is made of. -/
theorem wordField_commandWord :
    wordField (commandWord op sd ss b n) 8 2 = sd ∧ wordField (commandWord op sd ss b n) 10 2 = ss ∧
      wordField (commandWord op sd ss b n) 12 1 = b ∧ wordField (commandWord op sd ss b n) 16 6 = n := by
  simp only [wordField_eq, commandWord_toNat hop hsd hss hb hn]
  omega

theorem fieldSD_commandWord : fieldSD (commandWord op sd ss b n) = Fin.ofNat 4 sd := by
  obtain ⟨hread, -⟩ := wordField_commandWord hop hsd hss hb hn
  rw [fieldSD, hread]

theorem fieldSS_commandWord : fieldSS (commandWord op sd ss b n) = Fin.ofNat 4 ss := by
  obtain ⟨-, hread, -⟩ := wordField_commandWord hop hsd hss hb hn
  rw [fieldSS, hread]

theorem fieldN_commandWord : fieldN (commandWord op sd ss b n) = n := by
  obtain ⟨-, -, -, hread⟩ := wordField_commandWord hop hsd hss hb hn
  exact hread

theorem fieldM_commandWord : fieldM (commandWord op sd ss b n) = Fin.ofNat 8 n := by
  obtain ⟨-, -, -, hread⟩ := wordField_commandWord hop hsd hss hb hn
  rw [fieldM_eq, hread]

omit hb in
theorem fieldB_commandWord (b : Bool) : fieldB (commandWord op sd ss b.toNat n) = b := by
  obtain ⟨-, -, hread, -⟩ := wordField_commandWord hop hsd hss (Bool.toNat_lt b) hn
  rw [← fieldB_toNat] at hread
  cases b <;> simpa using hread

end

/-! ### The rows of R62 -/

/-- The rows are R60's opcodes and field masks: a row's mask is the complement of its fields. -/
theorem commandFields_eq : Machine.commandFields = opcodeRows.map fun r => (r.pattern, ~~~r.mask) := by decide

/-- The rows have different opcodes. -/
theorem opcodeRows_patterns_nodup : (opcodeRows.map OpcodeRow.pattern).Nodup := by decide

/-- A row's pattern is an opcode in the OP byte, and its mask holds that byte. -/
theorem opcodeRow_opByte : ∀ r ∈ opcodeRows, r.pattern &&& 0xFF = r.pattern ∧ r.mask &&& 0xFF = 0xFF := by decide

theorem opcodeRow_pattern_and_mask : ∀ r ∈ opcodeRows, r.pattern &&& r.mask = r.pattern := by decide

/-- A word is an OP byte when that is its OP byte and its other bits are 0. -/
theorem eq_opByte_iff {v p : Word} (hp : p &&& 0xFF = p) : v = p ↔ v &&& 0xFF = p ∧ v &&& ~~~0xFF = 0 := by
  constructor
  · rintro rfl
    refine ⟨hp, ?_⟩
    rw [← hp, BitVec.and_assoc, BitVec.and_not_self]
    exact BitVec.and_zero
  · rintro ⟨hop, hrest⟩
    calc v = v &&& (0xFF ||| ~~~0xFF) := by rw [BitVec.or_not_self, BitVec.and_allOnes]
      _ = p ||| 0 := by rw [BitVec.and_or_distrib_left, hop, hrest]
      _ = p := BitVec.or_zero

/-- Match and mask of R62 read as R59 does: the OP byte is the row's, and no bit outside the row's fields is set. -/
theorem rowMatches_iff {r : OpcodeRow} (hr : r ∈ opcodeRows) (w : Word) :
    rowMatches w r = true ↔ w &&& 0xFF = r.pattern ∧ w &&& ~~~(0xFF ||| ~~~r.mask) = 0 := by
  obtain ⟨hp, hm⟩ := opcodeRow_opByte r hr
  have hop : w &&& r.mask &&& 0xFF = w &&& 0xFF := by rw [BitVec.and_assoc, hm]
  have hrest : w &&& r.mask &&& ~~~0xFF = w &&& ~~~(0xFF ||| ~~~r.mask) := by
    rw [BitVec.not_or, BitVec.not_not, BitVec.and_assoc, BitVec.and_comm r.mask]
  rw [rowMatches, beq_iff_eq, eq_opByte_iff hp, hop, hrest]

/-- A word of a row is its opcode with the bits of its fields. -/
theorem eq_pattern_or_fields {w : Word} {r : OpcodeRow} (h : rowMatches w r = true) :
    r.pattern ||| (w &&& ~~~r.mask) = w := by
  rw [rowMatches, beq_iff_eq] at h
  rw [← h, ← BitVec.and_or_distrib_left, BitVec.or_not_self, BitVec.and_allOnes]

/-- An opcode with any bits in its fields is a word of its row. -/
theorem rowMatches_pattern_or_fields {r : OpcodeRow} (hr : r ∈ opcodeRows) (w : Word) :
    rowMatches (r.pattern ||| (w &&& ~~~r.mask)) r = true := by
  rw [rowMatches, beq_iff_eq, BitVec.and_or_distrib_right, BitVec.and_assoc, BitVec.not_and_self,
    opcodeRow_pattern_and_mask r hr]
  simp

/-- The encoder writes back each field that the row reads, so that no bit under the row's fields is lost. For each row:
the encoded word is the union of the word's bits under R60's field masks, and their union is the complement of R62's. -/
theorem encode_build {r : OpcodeRow} (hr : r ∈ opcodeRows) (w : Word) :
    encode (r.build w) = r.pattern ||| (w &&& ~~~r.mask) := by
  have hb : (fieldB w).toNat < 2 := Bool.toNat_lt _
  have hn : fieldN w < 64 := fieldN_lt w
  revert r
  simp (disch := omega) only [opcodeRows, List.forall_mem_cons, encode, commandWord_eq_or, ofNat_fieldSD,
    ofNat_fieldSS, ofNat_fieldB, ofNat_fieldN, ofNat_fieldM]
  simp [BitVec.or_assoc, ← BitVec.and_or_distrib_left]

theorem wellFormed_build {r : OpcodeRow} (hr : r ∈ opcodeRows) (w : Word) : (r.build w).wellFormed = true := by
  revert r
  simp [opcodeRows, Instr.wellFormed, fieldN_lt]

/-- Each command has a row that reads its operands back from its word. -/
theorem exists_build_encode {i : Instr} (h : i.wellFormed = true) : ∃ r ∈ opcodeRows, r.build (encode i) = i := by
  cases i with
  | bsAppendBits sd n =>
    have hn : n < 64 := of_decide_eq_true h
    simp (disch := omega) [opcodeRows, encode, fieldSD_commandWord, fieldN_commandWord]
  | bsAppendBools sd b =>
    have hb : b.toNat < 2 := Bool.toNat_lt b
    simp (disch := omega) [opcodeRows, encode, fieldSD_commandWord, fieldB_commandWord]
  | _ => simp (disch := omega) [opcodeRows, encode, fieldSD_commandWord, fieldSS_commandWord, fieldM_commandWord]

/-- A word is of one row at most: its OP byte says which. -/
theorem eq_of_rowMatches {w : Word} {r r' : OpcodeRow} (hr : r ∈ opcodeRows) (hr' : r' ∈ opcodeRows)
    (h : rowMatches w r = true) (h' : rowMatches w r' = true) : r = r' := by
  obtain ⟨hop, -⟩ := (rowMatches_iff hr w).mp h
  obtain ⟨hop', -⟩ := (rowMatches_iff hr' w).mp h'
  exact List.inj_on_of_nodup_map opcodeRows_patterns_nodup hr hr' (hop.symm.trans hop')

/-! ### The decoder -/

theorem decode_eq_ok_iff {w : Word} {i : Instr} :
    decode w = .ok i ↔ ∃ r ∈ opcodeRows, rowMatches w r = true ∧ r.build w = i := by
  unfold decode
  constructor
  · intro h
    split at h
    · next r hf =>
      injection h with h
      exact ⟨r, List.mem_of_find?_eq_some hf, List.find?_some hf, h⟩
    · split at h <;> cases h
  · rintro ⟨r, hr, hm, rfl⟩
    cases hf : opcodeRows.find? (rowMatches w) with
    | none => exact absurd hm (List.find?_eq_none.mp hf r hr)
    | some r' => rw [eq_of_rowMatches hr (List.mem_of_find?_eq_some hf) hm (List.find?_some hf)]

theorem legalWord_iff (w : Word) : Machine.LegalWord w ↔ ∃ r ∈ opcodeRows, rowMatches w r = true := by
  simp only [Machine.LegalWord, commandFields_eq, List.mem_map, exists_exists_and_eq_and]
  exact exists_congr fun r => and_congr_right fun hr => (rowMatches_iff hr w).symm

theorem exists_decode_iff (w : Word) : (∃ i, decode w = .ok i) ↔ Machine.LegalWord w := by
  simp only [decode_eq_ok_iff, legalWord_iff]
  constructor
  · rintro ⟨i, r, hr, hm, -⟩
    exact ⟨r, hr, hm⟩
  · rintro ⟨r, hr, hm⟩
    exact ⟨r.build w, r, hr, hm, rfl⟩

end Sys2Proof

namespace Sys2Proof.Machine

/-- Settles O1: the command's row reads the operands back, and what the encoder makes of a row's fields is a word of
that row. -/
theorem decodeOfEncode : Obligations.DecodeOfEncode := by
  unfold Obligations.DecodeOfEncode
  intro i hwf
  obtain ⟨r, hr, hbuild⟩ := exists_build_encode hwf
  have hword : encode i = r.pattern ||| (encode i &&& ~~~r.mask) := by
    rw [← encode_build hr, hbuild]
  refine decode_eq_ok_iff.mpr ⟨r, hr, ?_, hbuild⟩
  rw [hword]
  exact rowMatches_pattern_or_fields hr _

/-- Settles O2: a word of a row is its opcode with the bits of its fields, and the encoder gives just these. -/
theorem commandWordsAreTheLegalWords : Obligations.CommandWordsAreTheLegalWords := by
  unfold Obligations.CommandWordsAreTheLegalWords
  refine fun w => ⟨exists_decode_iff w, fun i hi => ?_⟩
  obtain ⟨r, hr, hm, rfl⟩ := decode_eq_ok_iff.mp hi
  exact ⟨wellFormed_build hr w, (encode_build hr w).trans (eq_pattern_or_fields hm)⟩

/-- Settles O3, by evaluating the decoder on the nine words. -/
theorem specWordsDecode : Obligations.SpecWordsDecode := by
  unfold Obligations.SpecWordsDecode
  decide

/-- With BUSY = 1 and no host step left before it, the step is the engine's (log 3). -/
theorem step_engineTurn {s : State} (hb : s.busy = true) (hturn : s.env.hold = 0 ∨ s.env.inbox = []) :
    step s = engineStep s := by
  have hmoves : s.engineMoves = true := by
    rw [State.engineMoves, hb]
    rcases hturn with h | h <;> simp [h]
  rw [step, agentStep, if_pos hmoves]

/-- Settles O5: the engine moves, and the decoder gives no command for an illegal word. -/
theorem stepEndsIllegalWord : Obligations.StepEndsIllegalWord := by
  unfold Obligations.StepEndsIllegalWord
  intro s hb hturn hill
  rw [step_engineTurn hb hturn]
  rcases engineStep_cases s with ⟨i, hi, -⟩ | ⟨e, -, hstep⟩
  · exact absurd ((exists_decode_iff _).mp ⟨i, hi⟩) hill
  · exact hstep

end Sys2Proof.Machine

/-! ## Bitstream commands (41_bitstream.md R71 to R76) -/

namespace Sys2Proof.Machine

/-! ### The room check, appended bits, frames -/

theorem State.not_fits_iff (s : State) (i : BufIdx) (n : Nat) : (!s.fits i n) = true ↔ 32768 < s.len i + n := by
  rw [Bool.not_eq_true', ← Bool.not_eq_true, State.fits_iff, not_le]

theorem State.len_appendBuf_same (s : State) (i : BufIdx) (b : Bits) :
    (s.appendBuf i b).len i = s.len i + b.length := by
  rw [State.len, State.buf_appendBuf_same, List.length_append, State.len]

/-- The old bits stay in front. -/
theorem State.getElem?_appendBuf_old (s : State) (i : BufIdx) (b : Bits) {k : Nat} (h : k < s.len i) :
    ((s.appendBuf i b).buf i)[k]? = (s.buf i)[k]? := by
  rw [State.buf_appendBuf_same, List.getElem?_append_left h]

theorem State.getElem?_appendBuf_new (s : State) (i : BufIdx) (b : Bits) (j : Nat) :
    ((s.appendBuf i b).buf i)[s.len i + j]? = b[j]? := by
  rw [State.buf_appendBuf_same, State.len, List.getElem?_append_right (Nat.le_add_right _ _), Nat.add_sub_cancel_left]

/-- A command that appends and completes has the frame of R72 to R74. -/
theorem bufferFrame_appendBuf (s : State) (sd : BufIdx) (b : Bits) : BufferFrame sd s (s.appendBuf sd b).complete :=
  bufferFrame_setBuf s sd (s.buf sd ++ b)

/-- A command that only completes has the frame of R117. -/
theorem resultFrame_complete (s : State) : ResultFrame s s.complete := resultFrame_setResult s s.result

/-- The room check of R69 lets a command go on when there is room. -/
theorem ite_not_fits_of_room {s : State} {sd : BufIdx} {n : Nat} {code : ErrCode} {o : Host.Outcome State Fault Refusal}
    (room : s.len sd + n ≤ 32768) : (if !s.fits sd n then s.fail code else o) = o :=
  if_neg fun full => not_lt.mpr room ((s.not_fits_iff sd n).mp full)

/-! ### The value of a bit group (00_scope.md R7) -/

theorem bitsValue_concat (b : Bits) (x : Bool) : bitsValue (b ++ [x]) = 2 * bitsValue b + x.toNat := by
  rw [bitsValue, List.foldl_append, ← bitsValue]; rfl

/-- Bit j of a group has the weight of its place from the end. -/
theorem getElem?_eq_testBit_bitsValue {b : Bits} : ∀ {j : Nat}, j < b.length →
    b[j]? = some ((bitsValue b).testBit (b.length - 1 - j)) := by
  induction b using List.reverseRecOn with
  | nil => exact fun h => absurd h (Nat.not_lt_zero _)
  | append_singleton b x ih =>
    intro j hj
    rw [List.length_append, List.length_singleton] at hj
    rw [bitsValue_concat, List.length_append, List.length_singleton, Nat.add_sub_cancel]
    rcases Nat.lt_succ_iff_lt_or_eq.mp hj with hlt | rfl
    · have hplace : b.length - j = b.length - 1 - j + 1 := by omega
      have hhalf : (2 * bitsValue b + x.toNat) / 2 = bitsValue b := by have := Bool.toNat_lt x; omega
      rw [List.getElem?_append_left hlt, ih hlt, hplace, Nat.testBit_succ, hhalf]
    · rw [List.getElem?_concat_length, Nat.sub_self, Nat.testBit_zero]
      cases x <;> simp

/-- Bit j of byte i, MSB-first, is bit 8i + j of the bitstream. -/
theorem getElem?_eq_byteAt_getLsbD {b : Bits} {i j : Nat} (inside : 8 * i + 8 ≤ b.length) (hj : j < 8) :
    b[8 * i + j]? = some ((byteAt b i).getLsbD (7 - j)) := by
  have hlen : (slice b (8 * i) (8 * i + 8)).length = 8 := by rw [slice_length _ _ _ inside]; omega
  have hbit := getElem?_eq_testBit_bitsValue (b := slice b (8 * i) (8 * i + 8)) (hlen.symm ▸ hj)
  rw [slice_getElem? _ _ _ _ (by omega), hlen] at hbit
  rw [hbit, byteAt, BitVec.getLsbD_ofNat, decide_eq_true (by omega : 7 - j < 8), Bool.true_and]

/-! ### The commands -/

/-- Settles O12: the command appends `bitsMsbFirst`, whose bit j is ARG0[N − 1 − j]. -/
theorem bsAppendBitsAppendsMsbFirst : Obligations.BsAppendBitsAppendsMsbFirst := by
  unfold Obligations.BsAppendBitsAppendsMsbFirst
  intro s sd n hn room
  have hexec : exec (.bsAppendBits sd n) s = (s.appendBuf sd (bitsMsbFirst n s.latch.arg0)).finish :=
    (if_neg (not_lt.mpr hn)).trans (ite_not_fits_of_room room)
  refine ⟨_, hexec, ?_, ?_, ?_, bufferFrame_appendBuf s sd _⟩
  · rw [State.len_complete, State.len_appendBuf_same, bitsMsbFirst_length]
  · exact fun k hk => s.getElem?_appendBuf_old sd _ hk
  · exact fun j hj => (s.getElem?_appendBuf_new sd _ j).trans (bitsMsbFirst_getElem? n _ hj)

/-- Settles O13: the command appends `List.replicate`. -/
theorem bsAppendBoolsAppendsCopies : Obligations.BsAppendBoolsAppendsCopies := by
  unfold Obligations.BsAppendBoolsAppendsCopies
  intro s sd b room
  have hexec : exec (.bsAppendBools sd b) s = (s.appendBuf sd (List.replicate s.op0 b)).finish :=
    ite_not_fits_of_room room
  refine ⟨_, hexec, ?_, ?_, ?_, bufferFrame_appendBuf s sd _⟩
  · rw [State.len_complete, State.len_appendBuf_same, List.length_replicate, State.op0]
  · exact fun k hk => s.getElem?_appendBuf_old sd _ hk
  · exact fun j hj => (s.getElem?_appendBuf_new sd _ j).trans (List.getElem?_replicate_of_lt hj)

/-- Settles O14: the source is read before the destination is written (R68). -/
theorem bsAppendConcatenates : Obligations.BsAppendConcatenates := by
  unfold Obligations.BsAppendConcatenates
  intro s sd ss room
  have hexec : exec (.bsAppend sd ss) s = (s.appendBuf sd (s.buf ss)).finish := ite_not_fits_of_room room
  exact ⟨_, hexec, State.buf_appendBuf_same s sd _, bufferFrame_appendBuf s sd _⟩

/-- Settles O15: the command writes `slice`, whose bit k is bit lo + k of the source. -/
theorem bsSubstrTakesSlice : Obligations.BsSubstrTakesSlice := by
  unfold Obligations.BsSubstrTakesSlice
  intro s sd ss hle hlen
  have hexec : exec (.bsSubstr sd ss) s = (s.setBuf sd (slice (s.buf ss) s.op0 s.op1)).finish := if_pos ⟨hle, hlen⟩
  refine ⟨_, hexec, ?_, ?_, bufferFrame_setBuf s sd _⟩
  · rw [State.len, State.buf_complete, State.buf_setBuf_same]
    exact slice_length _ _ _ hlen
  · intro k hk
    rw [State.buf_complete, State.buf_setBuf_same]
    exact slice_getElem? _ _ _ _ (Nat.add_lt_of_lt_sub' hk)

/-- Settles O11: neither command checks anything. -/
theorem nopAndBsClearComplete : Obligations.NopAndBsClearComplete := by
  unfold Obligations.NopAndBsClearComplete
  intro s sd
  exact ⟨⟨_, rfl, resultFrame_complete s, rfl⟩,
    ⟨_, rfl, State.buf_setBuf_same s sd [], bufferFrame_setBuf s sd []⟩⟩

/-- Settles O17: each clause is the failure of one check of the command, those before it passed. -/
theorem bitstreamErrors : Obligations.BitstreamErrors := by
  unfold Obligations.BitstreamErrors
  intro s sd ss n b
  refine ⟨?appendBitsOperand, ?appendBitsOverflow, ?appendBools, ?append, ?substr, ?byteAt⟩
  case appendBitsOperand => exact fun hn => if_pos hn
  case appendBitsOverflow =>
    exact fun hn full => (if_neg (not_lt.mpr hn)).trans (if_pos ((s.not_fits_iff sd n).mpr full))
  case appendBools => exact fun full => if_pos ((s.not_fits_iff sd _).mpr full)
  case append => exact fun full => if_pos ((s.not_fits_iff sd _).mpr full)
  case substr =>
    refine fun outside => if_neg fun ⟨hle, hlen⟩ => ?_
    rcases outside with h | h
    · exact absurd hle (not_le.mpr h)
    · exact absurd hlen (not_le.mpr h)
  case byteAt => exact fun hshort => if_pos hshort

/-- Settles O16: RESULT is the byte, padded with zeros. -/
theorem bsByteAtReadsByte : Obligations.BsByteAtReadsByte := by
  unfold Obligations.BsByteAtReadsByte
  intro s ss inside
  have hexec : exec (.bsByteAt ss) s = (s.setResult ((byteAt (s.buf ss) s.op0).setWidth 32)).finish :=
    if_neg (not_lt.mpr inside)
  refine ⟨_, hexec, ?_, toNat_setWidth_byte_lt _, resultFrame_setResult s _⟩
  intro j hj
  have hpad : ((byteAt (s.buf ss) s.op0).setWidth 32).getLsbD (7 - j) = (byteAt (s.buf ss) s.op0).getLsbD (7 - j) := by
    rw [BitVec.getLsbD_setWidth, decide_eq_true (by omega : 7 - j < 32), Bool.true_and]
  exact (getElem?_eq_byteAt_getLsbD inside hj).trans (congrArg some hpad.symm)

end Sys2Proof.Machine

/-! ## The field GF(256) (42_gf_rs.md R77 to R80) -/

namespace Sys2Proof.Machine

/-- A map of bytes that respects sums and the multiplication by α. The product of R77 passes through every such map,
and the laws of the field follow from that. -/
structure AlphaLinear (f : Byte → Byte) : Prop where
  xor : ∀ a b, f (a ^^^ b) = f a ^^^ f b
  xtime : ∀ a, f (xtime a) = xtime (f a)

theorem AlphaLinear.zero {f : Byte → Byte} (hf : AlphaLinear f) : f 0 = 0 := by
  simpa using hf.xor 0 0

theorem xtime_eq_xor (v : Byte) : xtime v = v <<< 1 ^^^ (if v.getLsbD 7 then 0x1D else 0) := by
  unfold xtime
  split
  · rfl
  · exact BitVec.xor_zero.symm

theorem xtime_xor (a b : Byte) : xtime (a ^^^ b) = xtime a ^^^ xtime b := by
  have hcarry : ∀ p q : Bool, (if p ^^ q then (0x1D : Byte) else 0) =
      (if p then 0x1D else 0) ^^^ (if q then 0x1D else 0) := by decide
  rw [xtime_eq_xor, BitVec.getLsbD_xor, BitVec.shiftLeft_xor_distrib, hcarry, xtime_eq_xor a, xtime_eq_xor b]
  ac_rfl

theorem alphaLinear_xtime : AlphaLinear xtime := ⟨xtime_xor, fun _ => rfl⟩

/-- Horner's rule of R77 on any coefficients passes through a linear map. -/
theorem AlphaLinear.foldl_xtime {f : Byte → Byte} (hf : AlphaLinear f) (c : Nat → Byte) (l : List Nat) (acc : Byte) :
    f (l.foldl (fun acc j => Machine.xtime acc ^^^ c j) acc) =
      l.foldl (fun acc j => Machine.xtime acc ^^^ f (c j)) (f acc) := by
  induction l generalizing acc with
  | nil => rfl
  | cons j l ih => rw [List.foldl_cons, ih, hf.xor, hf.xtime, List.foldl_cons]

/-- Horner's rule of R77 adds up when its coefficients do. -/
theorem foldl_xtime_xor (c d : Nat → Byte) (l : List Nat) (acc acc' : Byte) :
    l.foldl (fun acc j => xtime acc ^^^ (c j ^^^ d j)) (acc ^^^ acc') =
      l.foldl (fun acc j => xtime acc ^^^ c j) acc ^^^ l.foldl (fun acc j => xtime acc ^^^ d j) acc' := by
  induction l generalizing acc acc' with
  | nil => rfl
  | cons j l ih =>
    have hsum : xtime (acc ^^^ acc') ^^^ (c j ^^^ d j) = (xtime acc ^^^ c j) ^^^ (xtime acc' ^^^ d j) := by
      rw [xtime_xor]; ac_rfl
    rw [List.foldl_cons, List.foldl_cons, List.foldl_cons, hsum, ih]

theorem AlphaLinear.gfMul {f : Byte → Byte} (hf : AlphaLinear f) (a b : Byte) :
    f (gfMul a b) = Machine.gfMul a (f b) := by
  rw [Machine.gfMul, hf.foldl_xtime, hf.zero, Machine.gfMul]
  simp only [apply_ite f, hf.zero]

theorem gfMul_xor (a b c : Byte) : gfMul a (b ^^^ c) = gfMul a b ^^^ gfMul a c := by
  have hterm (p : Bool) : (if p then b ^^^ c else 0) = (if p then b else 0) ^^^ (if p then c else 0) := by
    cases p <;> simp
  simp only [gfMul, hterm]
  exact foldl_xtime_xor _ _ _ 0 0

theorem alphaLinear_gfMul (a : Byte) : AlphaLinear (gfMul a) :=
  ⟨gfMul_xor a, fun b => (alphaLinear_xtime.gfMul a b).symm⟩

@[simp] theorem gfMul_zero (a : Byte) : gfMul a 0#8 = 0#8 := (alphaLinear_gfMul a).zero

theorem gfMul_left_comm (a b c : Byte) : gfMul a (gfMul b c) = gfMul b (gfMul a c) := (alphaLinear_gfMul a).gfMul b c

@[simp] theorem gfMul_one (a : Byte) : gfMul a 1#8 = a := by revert a; decide

theorem gfMul_comm (a b : Byte) : gfMul a b = gfMul b a := by
  simpa using gfMul_left_comm a b 1

@[simp] theorem one_gfMul (a : Byte) : gfMul 1#8 a = a := by rw [gfMul_comm, gfMul_one]

@[simp] theorem zero_gfMul (a : Byte) : gfMul 0#8 a = 0#8 := by rw [gfMul_comm, gfMul_zero]

theorem xor_gfMul (a b c : Byte) : gfMul (a ^^^ b) c = gfMul a c ^^^ gfMul b c := by
  simp only [gfMul_comm _ c, gfMul_xor]

theorem gfMul_assoc (a b c : Byte) : gfMul (gfMul a b) c = gfMul a (gfMul b c) := by
  rw [gfMul_comm, gfMul_left_comm, gfMul_comm c]

theorem gfMul_right_comm (a b c : Byte) : gfMul (gfMul a b) c = gfMul (gfMul a c) b := by
  rw [gfMul_assoc, gfMul_comm b, gfMul_assoc]

/-! ## Polynomials over the field (42_gf_rs.md R81 to R83) -/

/-- The value of `polyEval` read on from the value `acc` of the coefficients before. -/
def polyEvalFrom (x acc : Byte) (c : List Byte) : Byte := c.foldl (fun acc b => gfMul acc x ^^^ b) acc

theorem polyEval_eq (c : List Byte) (x : Byte) : polyEval c x = polyEvalFrom x 0 c := rfl

@[simp] theorem polyEvalFrom_nil (x acc : Byte) : polyEvalFrom x acc [] = acc := rfl

@[simp] theorem polyEvalFrom_cons (x acc b : Byte) (c : List Byte) :
    polyEvalFrom x acc (b :: c) = polyEvalFrom x (gfMul acc x ^^^ b) c := rfl

theorem polyEvalFrom_append (x acc : Byte) (c d : List Byte) :
    polyEvalFrom x acc (c ++ d) = polyEvalFrom x (polyEvalFrom x acc c) d := List.foldl_append

theorem polyEval_append (c d : List Byte) (x : Byte) : polyEval (c ++ d) x = polyEvalFrom x (polyEval c x) d :=
  polyEvalFrom_append x 0 c d

theorem polyEval_cons_zero (c : List Byte) (x : Byte) : polyEval (0 :: c) x = polyEval c x := by
  simp [polyEval_eq]

/-- The value is additive. -/
theorem polyEvalFrom_zipWith_xor (x : Byte) {c d : List Byte} (hlen : c.length = d.length) (acc acc' : Byte) :
    polyEvalFrom x (acc ^^^ acc') (List.zipWith (· ^^^ ·) c d) = polyEvalFrom x acc c ^^^ polyEvalFrom x acc' d := by
  induction c generalizing d acc acc' with
  | nil => rw [List.length_eq_zero_iff.mp hlen.symm]; rfl
  | cons b c ih =>
    cases d with
    | nil => cases hlen
    | cons b' d =>
      have hsum : gfMul (acc ^^^ acc') x ^^^ (b ^^^ b') = (gfMul acc x ^^^ b) ^^^ (gfMul acc' x ^^^ b') := by
        rw [xor_gfMul]; ac_rfl
      rw [List.zipWith_cons_cons, polyEvalFrom_cons, hsum, ih (Nat.succ.inj hlen), polyEvalFrom_cons, polyEvalFrom_cons]

/-- The value scales with the coefficients. -/
theorem polyEvalFrom_map_gfMul (x f acc : Byte) (c : List Byte) :
    polyEvalFrom x (gfMul acc f) (c.map (gfMul · f)) = gfMul (polyEvalFrom x acc c) f := by
  induction c generalizing acc with
  | nil => rfl
  | cons b c ih =>
    rw [List.map_cons, polyEvalFrom_cons, gfMul_right_comm, ← xor_gfMul, ih, polyEvalFrom_cons]

theorem polyEval_map_gfMul (x f : Byte) (c : List Byte) : polyEval (c.map (gfMul · f)) x = gfMul (polyEval c x) f := by
  simpa [polyEval_eq] using polyEvalFrom_map_gfMul x f 0 c

/-! ### The generator polynomial (R81) -/

/-- The value of G · (x + r). -/
theorem polyEval_mulByRoot (g : List Byte) (r x : Byte) :
    polyEval (mulByRoot g r) x = gfMul (polyEval g x) x ^^^ gfMul (polyEval g x) r := by
  calc polyEval (mulByRoot g r) x
      = polyEval (g ++ [0]) x ^^^ polyEval (0 :: g.map (gfMul · r)) x := polyEvalFrom_zipWith_xor x (by simp) 0 0
    _ = gfMul (polyEval g x) x ^^^ gfMul (polyEval g x) r := by
      rw [polyEval_append, polyEval_cons_zero, polyEval_map_gfMul]; simp

theorem genPoly_succ (t : Nat) : genPoly (t + 1) = mulByRoot (genPoly t) (gfExp t) := by
  rw [genPoly, List.range_succ, List.foldl_append, ← genPoly]; rfl

/-- The roots of G_t are α^0 .. α^(t−1). -/
theorem polyEval_genPoly {t i : Nat} (hi : i < t) : polyEval (genPoly t) (gfExp i) = 0 := by
  induction t with
  | zero => cases hi
  | succ t ih =>
    rw [genPoly_succ, polyEval_mulByRoot]
    rcases Nat.lt_succ_iff_lt_or_eq.mp hi with hlt | rfl
    · simp [ih hlt]
    · exact BitVec.xor_self

/-- G_t is monic. -/
theorem genPoly_eq_cons (t : Nat) : genPoly t = 1 :: (genPoly t).tail := by
  induction t with
  | zero => rfl
  | succ t ih => rw [genPoly_succ, ih, mulByRoot]; simp

/-! ### The division (R82, R83) -/

/-- A round of the division keeps the value at every root of the divisor: `acc` is the value of the codewords before. -/
theorem polyEvalFrom_divideStep {g rem : List Byte} {x acc d : Byte} (hlen : g.length = rem.length) (hrem : rem ≠ [])
    (hroot : polyEval (1 :: g) x = 0) (hzero : polyEvalFrom x acc rem = 0) :
    polyEvalFrom x (gfMul acc x ^^^ d) (divideStep g rem d) = 0 := by
  cases rem with
  | nil => exact absurd rfl hrem
  | cons r0 rs =>
    have hsplit : gfMul acc x ^^^ d = (gfMul acc x ^^^ r0) ^^^ gfMul 1 (d ^^^ r0) := by
      simp [BitVec.xor_comm d, BitVec.xor_assoc, ← BitVec.xor_assoc r0]
    have hstep : divideStep g (r0 :: rs) d = List.zipWith (· ^^^ ·) (rs ++ [0]) (g.map (gfMul · (d ^^^ r0))) := by
      rw [List.zipWith_map_right]; rfl
    have hshift : polyEvalFrom x (gfMul acc x ^^^ r0) (rs ++ [0]) = 0 := by
      rw [polyEvalFrom_cons] at hzero
      rw [polyEvalFrom_append, hzero]; simp
    have hmultiple : polyEvalFrom x (gfMul 1 (d ^^^ r0)) (g.map (gfMul · (d ^^^ r0))) = 0 := by
      have hg : polyEvalFrom x 1 g = 0 := by simpa [polyEval_eq] using hroot
      rw [polyEvalFrom_map_gfMul, hg]; simp
    rw [hsplit, hstep, polyEvalFrom_zipWith_xor x (by simp [hlen]), hshift, hmultiple]; simp

/-- The invariant of the division: data and remainder together vanish at the roots of the divisor. -/
theorem polyEvalFrom_foldl_divideStep {g : List Byte} {x : Byte} (hg : g ≠ []) (hroot : polyEval (1 :: g) x = 0)
    (d : List Byte) {rem : List Byte} {acc : Byte} (hlen : g.length = rem.length)
    (hzero : polyEvalFrom x acc rem = 0) :
    polyEvalFrom x acc (d ++ d.foldl (divideStep g) rem) = 0 := by
  induction d generalizing rem acc with
  | nil => exact hzero
  | cons b d ih =>
    have hrem : rem ≠ [] := by rintro rfl; exact hg (List.length_eq_zero_iff.mp hlen)
    exact ih (hlen.trans (divideStep_length g rem b hlen).symm) (polyEvalFrom_divideStep hlen hrem hroot hzero)

theorem polyEval_replicate_zero (x : Byte) (t : Nat) : polyEval (List.replicate t 0) x = 0 := by
  induction t with
  | zero => rfl
  | succ t ih => rw [List.replicate_succ, polyEval_cons_zero, ih]

/-- Data and parity vanish at every root of G_t (R82). -/
theorem polyEval_append_parity (d : List Byte) {t i : Nat} (hi : i < t) : polyEval (d ++ parity d t) (gfExp i) = 0 := by
  have hlen : (genPoly t).tail.length = t := by simp
  have hg : (genPoly t).tail ≠ [] := List.ne_nil_of_length_pos (hlen.symm ▸ Nat.zero_lt_of_lt hi)
  have hroot : polyEval (1 :: (genPoly t).tail) (gfExp i) = 0 := genPoly_eq_cons t ▸ polyEval_genPoly hi
  exact polyEvalFrom_foldl_divideStep hg hroot d (by simp) (polyEval_replicate_zero (gfExp i) t)

/-! ### Codewords in a bitstream (R7, R88) -/

theorem byteBits_getElem? (c : Byte) {j : Nat} (hj : j < 8) : (byteBits c)[j]? = some (c.getLsbD (7 - j)) :=
  bitsMsbFirst_getElem? 8 c hj

/-- Codewords that `bytesBits` appends to a bitstream stand at its old end, MSB-first. -/
theorem bytesAt_append_bytesBits (b : Bits) (p : List Byte) : BytesAt (b ++ bytesBits p) b.length p := by
  induction p generalizing b with
  | nil => exact fun i hi => absurd hi (Nat.not_lt_zero i)
  | cons c p ih =>
    intro i hi j hj
    rw [bytesBits, List.flatMap_cons, ← bytesBits, ← List.append_assoc]
    cases i with
    | zero =>
      rw [List.getElem?_append_left (by simp; omega), List.getElem?_append_right (by omega)]
      simpa using byteBits_getElem? c hj
    | succ i =>
      have hplace : b.length + 8 * (i + 1) + j = (b ++ byteBits c).length + 8 * i + j := by
        rw [List.length_append, byteBits_length]; omega
      rw [hplace]
      exact ih (b ++ byteBits c) i (Nat.lt_of_succ_lt_succ hi) j hj

/-- The codewords that are read from byte lo on stand at bit 8·lo. -/
theorem bytesAt_codewordsAt {b : Bits} {lo k : Nat} (inside : 8 * (lo + k) ≤ b.length) :
    BytesAt b (8 * lo) (codewordsAt b lo k) := by
  intro i hi j hj
  rw [codewordsAt_length] at hi
  rw [← Nat.mul_add, getElem?_eq_byteAt_getLsbD (by omega) hj]
  simp [codewordsAt, hi]

/-- Settles O23: the parity of the division makes a codeword, and reading and writing codewords is MSB-first. -/
theorem rsEncodeMakesCodeword : Obligations.RsEncodeMakesCodeword := by
  unfold Obligations.RsEncodeMakesCodeword
  intro s sd ss hlen inside room
  have hexec : exec (.rsEncode sd ss) s =
      (s.appendBuf sd (bytesBits (parity (codewordsAt (s.buf ss) s.op0 s.op1) s.op2))).finish :=
    (if_neg (not_lt.mpr hlen)).trans ((if_neg (not_lt.mpr inside)).trans (ite_not_fits_of_room room))
  refine ⟨_, codewordsAt (s.buf ss) s.op0 s.op1, parity (codewordsAt (s.buf ss) s.op0 s.op1) s.op2, hexec,
    codewordsAt_length _ _ _, bytesAt_codewordsAt inside, parity_length _ _, State.buf_appendBuf_same s sd _, ?_,
    fun i hi => polyEval_append_parity _ hi, bufferFrame_appendBuf s sd _⟩
  rw [State.buf_complete, State.buf_appendBuf_same]
  exact bytesAt_append_bytesBits _ _

end Sys2Proof.Machine

/-! ## The tables of the field (42_gf_rs.md R78 to R80) -/

namespace Sys2Proof.Machine

/-- α has order 255: of the divisors of 255, no smaller number of `xtime` steps leads from 1 back to 1. -/
theorem minimalPeriod_xtime_one : Function.minimalPeriod xtime 1 = 255 := by
  have returns : xtime^[255] 1 = 1 := by decide +kernel
  have early : xtime^[85] 1 ≠ 1 ∧ xtime^[51] 1 ≠ 1 ∧ xtime^[15] 1 ≠ 1 := by decide +kernel
  have proper : ∀ d ∈ Nat.divisors 255, d = 255 ∨ d ∣ 85 ∨ d ∣ 51 ∨ d ∣ 15 := by decide +kernel
  have hdvd : Function.minimalPeriod xtime 1 ∣ 255 := Function.IsPeriodicPt.minimalPeriod_dvd returns
  have steps (n : Nat) (h : Function.minimalPeriod xtime 1 ∣ n) : xtime^[n] 1 = 1 :=
    Function.isPeriodicPt_iff_minimalPeriod_dvd.mpr h
  rcases proper _ (Nat.mem_divisors.mpr ⟨hdvd, by decide⟩) with h | h | h | h
  · exact h
  · exact absurd (steps 85 h) early.1
  · exact absurd (steps 51 h) early.2.1
  · exact absurd (steps 15 h) early.2.2

/-! ### EXP (R78) -/

theorem expTable_length : expTable.length = 255 := List.length_iterate _ _ _

/-- Below 255 an entry is read as it stands in the table. -/
theorem getElem_expTable {i : Nat} (hi : i < expTable.length) : expTable[i] = gfExp i := by
  have hmod : i % 255 = i := Nat.mod_eq_of_lt (expTable_length ▸ hi)
  rw [gfExp, hmod, List.getD_eq_getElem _ _ hi]

/-- EXP[i] is α^i, for every i. -/
theorem gfExp_eq_iterate (i : Nat) : gfExp i = xtime^[i] 1 := by
  have hi : i % 255 < expTable.length := expTable_length.symm ▸ Nat.mod_lt i (by decide)
  calc gfExp i = expTable[i % 255] := List.getD_eq_getElem _ _ hi
    _ = xtime^[i % 255] 1 := List.getElem_iterate _ _ _ _ hi
    _ = xtime^[i] 1 := by rw [← minimalPeriod_xtime_one, Function.iterate_mod_minimalPeriod_eq]

theorem gfExp_zero : gfExp 0 = 1 := gfExp_eq_iterate 0

theorem gfExp_succ (i : Nat) : gfExp (i + 1) = xtime (gfExp i) := by
  rw [gfExp_eq_iterate, gfExp_eq_iterate, Function.iterate_succ_apply']

theorem gfExp_add_255 (i : Nat) : gfExp (i + 255) = gfExp i := by
  rw [gfExp, Nat.add_mod_right, gfExp]

theorem gfExp_inj {i j : Nat} (hi : i < 255) (hj : j < 255) (h : gfExp i = gfExp j) : i = j := by
  rw [gfExp_eq_iterate, gfExp_eq_iterate] at h
  rw [← minimalPeriod_xtime_one] at hi hj
  exact Function.iterate_injOn_Iio_minimalPeriod hi hj h

/-- `xtime` doubles, and takes 0x11D away where the double leaves the byte (R78). -/
theorem toNat_xtime (v : Byte) : (xtime v).toNat =
    if 256 ≤ 2 * v.toNat then (2 * v.toNat) ^^^ 0x11D else 2 * v.toNat := by
  revert v; decide

/-- Exponents add up (R80). -/
theorem gfMul_gfExp_gfExp (i j : Nat) : gfMul (gfExp i) (gfExp j) = gfExp (i + j) := by
  induction j with
  | zero => rw [gfExp_zero]; exact gfMul_one _
  | succ j ih =>
    rw [gfExp_succ, (alphaLinear_gfMul _).xtime, ih, ← gfExp_succ, Nat.add_assoc]

/-- No power of α is 0: it has an inverse. -/
theorem gfExp_ne_zero (i : Nat) : gfExp i ≠ 0 := by
  intro h
  have hone : gfExp (255 * i) = 1 := by rw [gfExp, Nat.mul_mod_right]; exact gfExp_zero
  have hinv : gfMul (gfExp i) (gfExp (254 * i)) = 1 := by
    have hexp : i + 254 * i = 255 * i := by omega
    rw [gfMul_gfExp_gfExp, hexp, hone]
  rw [h] at hinv
  exact absurd ((zero_gfMul _).symm.trans hinv) (by decide)

/-- Every byte but 0 is a power of α: the first 255 powers are 255 bytes other than 0. -/
theorem exists_gfExp_eq {a : Byte} (ha : a ≠ 0) : ∃ i < 255, gfExp i = a := by
  have hpos {b : Byte} (hb : b ≠ 0) : b.toNat ∈ Finset.Ico 1 256 :=
    Finset.mem_Ico.mpr ⟨Nat.pos_of_ne_zero fun h => hb (BitVec.eq_of_toNat_eq h), b.isLt⟩
  obtain ⟨i, hi, h⟩ := Finset.surj_on_of_inj_on_of_card_le (s := Finset.range 255) (t := Finset.Ico 1 256)
    (fun i _ => (gfExp i).toNat) (fun i _ => hpos (gfExp_ne_zero i))
    (fun i j hi hj h => gfExp_inj (Finset.mem_range.mp hi) (Finset.mem_range.mp hj) (BitVec.eq_of_toNat_eq h))
    (by simp) a.toNat (hpos ha)
  exact ⟨i, Finset.mem_range.mp hi, BitVec.eq_of_toNat_eq h.symm⟩

/-! ### LOG (R79) -/

theorem gfLog_lt {a : Byte} (ha : a ≠ 0) : gfLog a < expTable.length := by
  obtain ⟨i, hi, rfl⟩ := exists_gfExp_eq ha
  rw [← expTable_length] at hi
  exact List.idxOf_lt_length_iff.mpr (getElem_expTable hi ▸ List.getElem_mem hi)

/-- LOG finds the exponent. -/
theorem gfExp_gfLog {a : Byte} (ha : a ≠ 0) : gfExp (gfLog a) = a :=
  (getElem_expTable (gfLog_lt ha)).symm.trans (List.getElem_idxOf (gfLog_lt ha))

theorem gfLog_le_254 {a : Byte} (ha : a ≠ 0) : gfLog a ≤ 254 := by
  have h := gfLog_lt ha
  rw [expTable_length] at h
  exact Nat.le_of_lt_succ h

/-! ### The product and the inverse by the tables (R80) -/

theorem gfMul_eq_table (a b : Byte) : gfMul a b = if a = 0 ∨ b = 0 then 0 else gfExp (gfLog a + gfLog b) := by
  by_cases ha : a = 0
  · rw [if_pos (.inl ha), ha]; exact zero_gfMul b
  by_cases hb : b = 0
  · rw [if_pos (.inr hb), hb]; exact gfMul_zero a
  rw [if_neg (not_or.mpr ⟨ha, hb⟩), ← gfMul_gfExp_gfExp, gfExp_gfLog ha, gfExp_gfLog hb]

theorem gfMul_gfExp_inverse {a : Byte} (ha : a ≠ 0) : gfMul a (gfExp (255 - gfLog a)) = 1 := by
  calc gfMul a (gfExp (255 - gfLog a))
      = gfExp (gfLog a + (255 - gfLog a)) := by rw [← gfMul_gfExp_gfExp, gfExp_gfLog ha]
    _ = gfExp 0 := by rw [Nat.add_sub_of_le (gfLog_le a)]; exact gfExp_add_255 0
    _ = 1 := gfExp_zero

/-- Settles O18: the laws are those of a product linear in each factor; table law and inverse come from the order
of α. -/
theorem fieldLaws : Obligations.FieldLaws := by
  unfold Obligations.FieldLaws
  intro a b c
  exact ⟨gfMul_eq_table a b, gfMul_comm a b, gfMul_assoc a b c, gfMul_xor a b c, one_gfMul b,
    fun ha => ⟨gfMul_gfExp_inverse ha, gfExp_gfLog ha, gfLog_le_254 ha⟩⟩

end Sys2Proof.Machine

/-! ## Field and Reed-Solomon commands (42_gf_rs.md R84 to R88) -/

namespace Sys2Proof.Machine

/-- GF_MUL on byte operands (R84). -/
theorem exec_gfMul_of_operands {s : State} {a b : Byte} (ha : s.latch.arg0.toNat = a.toNat)
    (hb : s.latch.arg1.toNat = b.toNat) : exec .gfMul s = (s.setResult ((gfMul a b).setWidth 32)).finish := by
  rw [exec, execGfMul, byteOperand_eq_some.mpr ha, byteOperand_eq_some.mpr hb]

/-- GF_MUL on an operand above 255. -/
theorem exec_gfMul_of_gt {s : State} (h : 255 < s.latch.arg0.toNat ∨ 255 < s.latch.arg1.toNat) :
    exec .gfMul s = s.fail .operand := by
  rw [exec, execGfMul]
  rcases h with h | h
  · rw [byteOperand_eq_none.mpr h]
  · rw [byteOperand_eq_none.mpr h]
    cases byteOperand s.latch.arg0 <;> rfl

/-- GF_LOG on a byte other than 0 (R86). -/
theorem exec_gfLog_of_operand {s : State} {a : Byte} (ha : s.latch.arg0.toNat = a.toNat) (hne : a ≠ 0) :
    exec .gfLog s = (s.setResult (BitVec.ofNat 32 (gfLog a))).finish := by
  rw [exec, execGfLog, byteOperand_eq_some.mpr ha]
  exact if_neg hne

/-- GF_LOG on 0 or on an operand above 255. -/
theorem exec_gfLog_of_bad {s : State} (h : s.latch.arg0 = 0 ∨ 255 < s.latch.arg0.toNat) :
    exec .gfLog s = s.fail .operand := by
  rw [exec, execGfLog]
  rcases h with h | h
  · have hzero : byteOperand s.latch.arg0 = some 0 := byteOperand_eq_some.mpr (by rw [h]; rfl)
    rw [hzero]
    exact if_pos rfl
  · rw [byteOperand_eq_none.mpr h]

/-- Settles O19: GF_MUL writes the product, which is the table law's. -/
theorem gfMulLeavesProduct : Obligations.GfMulLeavesProduct := by
  unfold Obligations.GfMulLeavesProduct
  intro s a b ha hb
  refine ⟨_, exec_gfMul_of_operands ha hb, ?_, resultFrame_setResult s _⟩
  rw [← gfMul_eq_table]
  exact BitVec.toNat_setWidth_of_le (by decide)

/-- Settles O20: GF_EXP and GF_LOG write the entries, and the entries are the powers of α, whose order is 255. -/
theorem gfExpAndGfLogLeaveEntries : Obligations.GfExpAndGfLogLeaveEntries := by
  unfold Obligations.GfExpAndGfLogLeaveEntries
  refine ⟨?exp, ?log, gfExp_zero, ?next, ?period, fun i hi j hj => gfExp_inj hi hj⟩
  case exp =>
    intro s hle
    have hvalue : ((gfExp s.op0).setWidth 32 : Word).toNat = (gfExp s.op0).toNat :=
      BitVec.toNat_setWidth_of_le (by decide)
    refine ⟨_, if_neg (not_lt.mpr hle), hvalue, fun hzero => ?_, resultFrame_setResult s _⟩
    have hresult : ((gfExp s.op0).setWidth 32 : Word) = 0 := hzero
    rw [hresult] at hvalue
    exact gfExp_ne_zero s.op0 (BitVec.eq_of_toNat_eq hvalue.symm)
  case log =>
    intro s hpos hle
    obtain ⟨a, ha⟩ : ∃ a : Byte, s.latch.arg0.toNat = a.toNat :=
      ⟨BitVec.ofNat 8 s.latch.arg0.toNat, (Nat.mod_eq_of_lt (Nat.lt_succ_of_le hle)).symm⟩
    have hne : a ≠ 0 := by rintro rfl; exact absurd ha (Nat.ne_of_gt hpos)
    have hlog := gfLog_le_254 hne
    have hvalue : (BitVec.ofNat 32 (gfLog a)).toNat = gfLog a := Nat.mod_eq_of_lt (by omega)
    refine ⟨_, exec_gfLog_of_operand ha hne, hvalue.trans_le hlog, ?_, resultFrame_setResult s _⟩
    exact (congrArg (fun n => (gfExp n).toNat) hvalue).trans ((congrArg BitVec.toNat (gfExp_gfLog hne)).trans ha.symm)
  case next => exact fun i _ => gfExp_succ i ▸ toNat_xtime (gfExp i)
  case period =>
    intro i hi _
    rw [← gfExp_add_255 (i - 255), Nat.sub_add_cancel hi]

/-- Settles O22: RS_GENPOLY appends G_t, a product of t factors (x + α^i). -/
theorem rsGenpolyAppendsMonicWithRoots : Obligations.RsGenpolyAppendsMonicWithRoots := by
  unfold Obligations.RsGenpolyAppendsMonicWithRoots
  intro s sd hle room
  have hexec : exec (.rsGenpoly sd) s = (s.appendBuf sd (bytesBits (genPoly s.op0))).finish :=
    (if_neg (not_lt.mpr hle)).trans (ite_not_fits_of_room room)
  have monic : (genPoly s.op0)[0]? = some 1 := by rw [genPoly_eq_cons]; rfl
  exact ⟨_, genPoly s.op0, hexec, State.buf_appendBuf_same s sd _, genPoly_length _, monic,
    fun i hi => polyEval_genPoly hi, bufferFrame_appendBuf s sd _⟩

/-- Settles O21: each clause is the failure of one check of the command, those before it passed. -/
theorem fieldAndRsErrors : Obligations.FieldAndRsErrors := by
  unfold Obligations.FieldAndRsErrors
  intro s sd ss
  refine ⟨exec_gfMul_of_gt, ?exp, exec_gfLog_of_bad, ?genpolyOperand, ?genpolyOverflow, ?encodeLength, ?encodeBounds,
    ?encodeOverflow⟩
  case exp => exact fun h => if_pos h
  case genpolyOperand => exact fun h => if_pos h
  case genpolyOverflow =>
    exact fun hle full => (if_neg (not_lt.mpr hle)).trans (if_pos ((s.not_fits_iff sd _).mpr full))
  case encodeLength => exact fun h => if_pos h
  case encodeBounds => exact fun hlen outside => (if_neg (not_lt.mpr hlen)).trans (if_pos outside)
  case encodeOverflow =>
    exact fun hlen inside full => (if_neg (not_lt.mpr hlen)).trans
      ((if_neg (not_lt.mpr inside)).trans (if_pos ((s.not_fits_iff sd _).mpr full)))

end Sys2Proof.Machine

/-! ## The placement order, position by position (43_symbol.md R99) -/

namespace Sys2Proof.Machine

/-- In a concatenation of blocks of n entries, entry j of block i stands at n·i + j. -/
theorem getElem?_flatMap_of_length {α β : Type} {f : α → List β} {n : Nat} :
    ∀ {l : List α}, (∀ a ∈ l, (f a).length = n) → ∀ {i j : Nat} {a : α}, l[i]? = some a → j < n →
      (l.flatMap f)[n * i + j]? = (f a)[j]?
  | [], _, _, _, _, ha, _ => by simp at ha
  | b :: l, hlen, 0, j, a, ha, hj => by
    obtain rfl : b = a := by simpa using ha
    rw [List.flatMap_cons, Nat.mul_zero, Nat.zero_add, List.getElem?_append_left]
    rwa [hlen b List.mem_cons_self]
  | b :: l, hlen, i + 1, j, a, ha, hj => by
    have hb := hlen b List.mem_cons_self
    rw [List.flatMap_cons, List.getElem?_append_right (by rw [hb, Nat.mul_succ]; omega), hb,
      show n * (i + 1) + j - n = n * i + j by rw [Nat.mul_succ]; omega]
    exact getElem?_flatMap_of_length (fun c hc => hlen c (List.mem_cons_of_mem _ hc)) (by simpa using ha) hj

/-- The two positions of row r of pair p (R99). -/
def pairRowCells (side p r : Nat) : List (Nat × Nat) :=
  [(pairColumn side p, pairRow side p r), (pairColumn side p - 1, pairRow side p r)]

/-- The positions of pair p, in order (R99). -/
def orderedPair (side p : Nat) : List (Nat × Nat) := (List.range side).flatMap (pairRowCells side p)

theorem orderedPair_length (side p : Nat) : (orderedPair side p).length = 2 * side := by
  simp [orderedPair, pairRowCells, Nat.mul_comm]

theorem pairRows_eq (side p : Nat) : pairRows side (decide (p % 2 = 0)) = (List.range side).map (pairRow side p) := by
  by_cases hp : p % 2 = 0
  · have hrow : pairRow side p = fun r => 0 + side - 1 - r := funext fun r => by rw [pairRow, if_pos hp, Nat.zero_add]
    rw [pairRows, if_pos (decide_eq_true hp), hrow, ← List.reverse_range', ← List.range_eq_range']
  · have hrow : pairRow side p = id := funext fun r => if_neg hp
    rw [pairRows, if_neg (by simpa using hp), hrow, List.map_id]

/-- The loop's column x is that of pair p once column 6 is skipped. -/
theorem pairCells_eq {side p x : Nat} (hx : rightColumn x = pairColumn side p) :
    pairCells side x (decide (p % 2 = 0)) = orderedPair side p := by
  simp only [pairCells, pairRows_eq, List.flatMap_map, hx]
  rfl

/-- From pair p on R99's loop visits the n pairs that are left, one after another. -/
theorem zigzagFrom_eq {side : Nat} (hodd : side % 2 = 1) {n : Nat} : ∀ {fuel p x : Nat},
    n + p = (side - 1) / 2 → n ≤ fuel → rightColumn x = pairColumn side p →
      zigzagFrom side fuel x (decide (p % 2 = 0)) = (List.range' p n).flatMap (orderedPair side) := by
  induction n with
  | zero =>
    intro fuel p x hp _ hx
    have : x < 1 := by
      unfold rightColumn pairColumn at hx
      split_ifs at hx <;> omega
    rw [zigzagFrom_of_lt _ _ _ this, List.range'_zero, List.flatMap_nil]
  | succ n ih =>
    intro fuel p x hp hfuel hx
    obtain ⟨fuel, rfl⟩ := Nat.exists_eq_succ_of_ne_zero (by omega : fuel ≠ 0)
    have hx1 : 1 ≤ x := by
      unfold rightColumn pairColumn at hx
      split_ifs at hx <;> omega
    have hnext : rightColumn (rightColumn x - 2) = pairColumn side (p + 1) := by
      rw [hx]
      unfold rightColumn pairColumn
      split_ifs <;> omega
    have hturn : (!decide (p % 2 = 0)) = decide ((p + 1) % 2 = 0) := by
      rw [← decide_not, decide_eq_decide]
      omega
    rw [zigzagFrom_succ _ _ _ hx1, pairCells_eq hx, hturn, ih (by omega) (by omega) hnext, List.range'_succ,
      List.flatMap_cons]

/-- The placement order is its (s − 1)/2 pairs, one after another (R99). -/
theorem zigzag_eq {side : Nat} (hodd : side % 2 = 1) (h7 : 7 < side) :
    zigzag side = (List.range ((side - 1) / 2)).flatMap (orderedPair side) := by
  have hx : rightColumn (side - 1) = pairColumn side 0 := by
    unfold rightColumn pairColumn
    split_ifs <;> omega
  rw [List.range_eq_range']
  exact zigzagFrom_eq hodd (by omega) (by omega) hx

/-- A pair never lies on column 6. -/
theorem pairColumn_ne_six {side : Nat} (hodd : side % 2 = 1) (p : Nat) :
    pairColumn side p ≠ 6 ∧ pairColumn side p - 1 ≠ 6 := by
  unfold pairColumn
  split <;> omega

theorem fst_ne_six_of_mem_zigzag {side x y : Nat} (hodd : side % 2 = 1) (h7 : 7 < side) (h : (x, y) ∈ zigzag side) :
    x ≠ 6 := by
  simp only [zigzag_eq hodd h7, orderedPair, pairRowCells, List.mem_flatMap, List.mem_cons, Prod.mk.injEq,
    List.not_mem_nil, or_false] at h
  obtain ⟨p, -, r, -, ⟨rfl, -⟩ | ⟨rfl, -⟩⟩ := h
  · exact (pairColumn_ne_six hodd p).1
  · exact (pairColumn_ne_six hodd p).2

theorem zigzag_length {side : Nat} (hodd : side % 2 = 1) (h7 : 7 < side) :
    (zigzag side).length = (side - 1) / 2 * (2 * side) := by
  simp [zigzag_eq hodd h7, List.length_flatMap, orderedPair_length]

/-- Entry j of row r of pair p (R99). -/
theorem zigzag_getElem? {side p r j : Nat} (hodd : side % 2 = 1) (h7 : 7 < side) (hp : p < (side - 1) / 2)
    (hr : r < side) (hj : j < 2) : (zigzag side)[2 * side * p + 2 * r + j]? = (pairRowCells side p r)[j]? := by
  rw [zigzag_eq hodd h7, Nat.add_assoc, getElem?_flatMap_of_length (fun p _ => orderedPair_length side p)
    (List.getElem?_range hp) (by omega), orderedPair,
    getElem?_flatMap_of_length (n := 2) (fun _ _ => rfl) (List.getElem?_range hr) hj]

/-- Settles O28: the loop's rounds are the pairs of R99, blocks of 2·s positions, and none lies on column 6. -/
theorem zigzagVisitsEachPositionOnce : Obligations.ZigzagVisitsEachPositionOnce := by
  unfold Obligations.ZigzagVisitsEachPositionOnce
  intro version h1
  have hodd : innerSide version % 2 = 1 := by unfold innerSide; omega
  have h7 : 7 < innerSide version := by unfold innerSide; omega
  refine ⟨zigzag_nodup _, fun x y => ⟨fun h => ?_, fun ⟨hx, hy, h6⟩ => mem_zigzag_of_ne_six h1 hx hy h6⟩,
    zigzag_length hodd h7, fun p hp r hr => ⟨?_, ?_⟩⟩
  · exact ⟨(lt_of_mem_zigzag h).1, (lt_of_mem_zigzag h).2, fst_ne_six_of_mem_zigzag hodd h7 h⟩
  · exact zigzag_getElem? hodd h7 hp hr Nat.zero_lt_two
  · exact zigzag_getElem? hodd h7 hp hr Nat.one_lt_two

end Sys2Proof.Machine

/-! ## Placing the stream (43_symbol.md R100) -/

namespace Sys2Proof.Machine

/-- SYM_PLACE in phase FUNC with one bit per free module (43_symbol.md R100). -/
theorem exec_symPlace_of_func {s : State} {ss : BufIdx} (hp : s.phase = .func) (hlen : s.len ss = s.sym.free.toNat) :
    exec (.symPlace ss) s = .next (s.setSymbol .placed { s.sym with free := 0 } s.pen
      { s.grids with
        module := s.grids.module.paint (placeStrokes s.grids.used s.side (s.buf ss)),
        used := s.grids.used.paint (allDark (placeStrokes s.grids.used s.side (s.buf ss))) }).complete :=
  (if_neg (not_not.mpr hp)).trans (if_neg (not_not.mpr hlen))

/-- SYM_PLACE writes bit i of the stream to the i-th free position, for each i that has both. -/
theorem mem_placeStrokes {used : Grid} {side : Nat} {bits : Bits} {k : Stroke} :
    k ∈ placeStrokes used side bits ↔
      ∃ i : Nat, (freeCells used side)[i]? = some (k.x, k.y) ∧ bits[i]? = some k.dark := by
  simp only [placeStrokes, List.mem_iff_getElem?, List.getElem?_zipWith_eq_some]
  constructor
  · rintro ⟨i, p, b, hp, hb, rfl⟩
    exact ⟨i, hp, hb⟩
  · rintro ⟨i, hp, hb⟩
    exact ⟨i, _, _, hp, hb, rfl⟩

theorem freeCells_nodup (used : Grid) (side : Nat) : (freeCells used side).Nodup := (zigzag_nodup side).filter _

theorem lt_of_getElem?_freeCells {used : Grid} {version k x y : Nat}
    (h : (freeCells used (innerSide version))[k]? = some (x, y)) : x < innerSide version ∧ y < innerSide version :=
  lt_of_mem_zigzag (mem_freeCells.mp (List.mem_of_getElem? h)).1

/-- The k-th free position holds bit k (R100): no position occurs twice, so no other bit goes there. -/
theorem readInner_paint_placeStrokes {used : Grid} {version : Nat} {bits : Bits} {k x y : Nat} {b : Bool} (g : Grid)
    (h40 : version ≤ 40) (hcell : (freeCells used (innerSide version))[k]? = some (x, y)) (hbit : bits[k]? = some b) :
    (g.paint (placeStrokes used (innerSide version) bits)).readInner x y = b := by
  have hs := innerSide_le h40
  have hlt := lt_of_getElem?_freeCells hcell
  refine Grid.readInner_paint_of_mem g _ x y b (by omega) (by omega)
    ⟨⟨x, y, b⟩, mem_placeStrokes.mpr ⟨k, hcell, hbit⟩, rfl, rfl⟩ ?_
  rintro ⟨_, _, c⟩ hk rfl rfl
  obtain ⟨i, hi, hc⟩ := mem_placeStrokes.mp hk
  have hlen := (List.getElem?_eq_some_iff.mp hi).1
  obtain rfl : i = k := (List.getElem?_inj hlen (freeCells_nodup used _)).mp (hi.trans hcell.symm)
  exact Option.some.inj (hc.symm.trans hbit)

/-- A module no stroke names is not marked either, in bordered coordinates. -/
theorem Grid.read_paint_allDark_of_not_mem (g : Grid) (ks : List Stroke) (X Y : Nat)
    (h : ∀ k ∈ ks, ¬(X = k.x + 4 ∧ Y = k.y + 4)) : (g.paint (allDark ks)).read X Y = g.read X Y :=
  Grid.read_paint_of_not_mem g _ X Y (List.forall_mem_map.mpr h)

/-- Settles O29: the strokes pair the free positions with the bits, and no position occurs twice. -/
theorem symPlaceFillsFreeModules : Obligations.SymPlaceFillsFreeModules := by
  unfold Obligations.SymPlaceFillsFreeModules
  intro s ss hp hlen _ h40
  refine ⟨_, exec_symPlace_of_func hp hlen, rfl, rfl, rfl, ?written, ?kept, rfl, rfl, rfl, rfl,
    symbolFrame_complete s _ _ _ _⟩
  case written =>
    intro k x y hcell hk
    have hbit : (s.buf ss)[k]? = some (s.buf ss)[k] := List.getElem?_eq_getElem hk
    have hmem : (x, y) ∈ strokeCells (placeStrokes s.grids.used s.side (s.buf ss)) :=
      mem_strokeCells.mpr ⟨⟨x, y, _⟩, mem_placeStrokes.mpr ⟨k, hcell, hbit⟩, rfl, rfl⟩
    have hs : s.side ≤ 177 := innerSide_le h40
    have hlt : x < s.side ∧ y < s.side := lt_of_getElem?_freeCells hcell
    exact ⟨hbit.trans (congrArg some (readInner_paint_placeStrokes _ h40 hcell hbit).symm),
      (Grid.readInner_paint_allDark _ _ (by omega) (by omega)).mpr (.inl hmem)⟩
  case kept =>
    intro X Y h
    have hnot : ∀ k ∈ placeStrokes s.grids.used s.side (s.buf ss), ¬(X = k.x + 4 ∧ Y = k.y + 4) := by
      rintro k hk ⟨rfl, rfl⟩
      obtain ⟨i, hi, hb⟩ := mem_placeStrokes.mp hk
      exact h i (List.getElem?_eq_some_iff.mp hb).1 _ _ hi rfl
    exact ⟨Grid.read_paint_of_not_mem _ _ X Y hnot, Grid.read_paint_allDark_of_not_mem _ _ X Y hnot⟩

end Sys2Proof.Machine

/-! ## Where the symbol commands fail (43_symbol.md R97, R98, R100, 44_mask.md R114 to R116) -/

namespace Sys2Proof.Machine

/-- A version or a level out of range is an operand error (43_symbol.md R97). -/
theorem endsWith_symInit_of_bad {s : State}
    (h : s.latch.arg0.toNat < 1 ∨ 40 < s.latch.arg0.toNat ∨ 3 < s.latch.arg1.toNat) : EndsWith .operand .symInit s := by
  unfold EndsWith
  simp only [exec, execSymInit]
  split
  · next v lvl hv hl =>
    have hver := versionOperand_eq_some.mp hv
    have hlvl : ¬ 3 < s.latch.arg1.toNat := fun h3 => by simp [levelOperand_eq_none.mpr h3] at hl
    omega
  · rfl

/-- Settles O30: each clause is the failure of one check of the command, those before it passed. -/
theorem symbolErrors : Obligations.SymbolErrors := by
  unfold Obligations.SymbolErrors
  intro s ss m
  have notMask : s.phase ∈ [Phase.empty, .init, .func] → (!s.phase.allowsMask) = true := by
    cases s.phase <;> decide
  have notScore : s.phase ∈ [Phase.empty, .init, .func, .placed] → (!s.phase.allowsScore) = true := by
    cases s.phase <;> decide
  refine ⟨endsWith_symInit_of_bad, ?function, ?place, ?length, ?mask, ?score⟩
  case function => exact fun hp => if_pos hp
  case place => exact fun hp => if_pos hp
  case length => exact fun hp hlen => (if_neg (not_not.mpr hp)).trans (if_pos hlen)
  case mask => exact fun hp => ⟨if_pos (notMask hp), if_pos (notMask hp)⟩
  case score => exact fun hp => if_pos (notScore hp)

end Sys2Proof.Machine

/-! ## The colours SYM_FUNCTION paints (43_symbol.md R90 to R94) -/

namespace Sys2Proof.Machine

/-! ### Strokes of one step -/

theorem absDiff_eq_natAbs (a b : Nat) : absDiff a b = ((a : Int) - b).natAbs := by
  unfold absDiff
  omega

theorem mem_strokeCells_of_mem {k : Stroke} {ks : List Stroke} (h : k ∈ ks) : (k.x, k.y) ∈ strokeCells ks :=
  mem_strokeCells.mpr ⟨k, h, rfl, rfl⟩

/-- A stroke of a ring square stands at an offset (dx, dy), whose distance from the centre gives its colour. -/
theorem mem_ringSquare_iff {k : Stroke} {x0 y0 n : Nat} {darkAt : Nat → Bool} :
    k ∈ ringSquare x0 y0 n darkAt ↔ ∃ dx < n, ∃ dy < n,
      ⟨x0 + dx, y0 + dy, darkAt (max (absDiff dx (n / 2)) (absDiff dy (n / 2)))⟩ = k := by
  simp only [ringSquare, List.mem_flatMap, List.mem_map, List.mem_range]

theorem mem_finderCorners {side fx fy : Nat} : (fx, fy) ∈ finderCorners side ↔
    fx = 0 ∧ fy = 0 ∨ fx = side - 7 ∧ fy = 0 ∨ fx = 0 ∧ fy = side - 7 := by
  simp [finderCorners]

theorem dark_of_mem_separatorStrokes {side fx fy : Nat} {k : Stroke} (h : k ∈ separatorStrokes side fx fy) :
    k.dark = false := by
  simp only [separatorStrokes, List.mem_flatMap, List.mem_filterMap, Option.ite_none_right_eq_some,
    Option.some.injEq] at h
  obtain ⟨i, -, j, -, -, rfl⟩ := h
  rfl

/-- A stroke of step 1 is one of a finder, or a light one outside the finders (R90). -/
theorem mem_finderStep_colour {side : Nat} (hs : 21 ≤ side) {k : Stroke} (h : k ∈ finderStep side) :
    (∃ fx fy, (fx, fy) ∈ finderCorners side ∧ k ∈ finderStrokes fx fy) ∨
      ¬ InFinder side k.x k.y ∧ k.dark = false := by
  obtain ⟨⟨fx, fy⟩, hf, hk⟩ := List.mem_flatMap.mp h
  rcases List.mem_append.mp hk with hk | hk
  · exact .inl ⟨fx, fy, hf, hk⟩
  · refine .inr ⟨?_, dark_of_mem_separatorStrokes hk⟩
    have hsep := mem_separatorStrokes.mp (mem_strokeCells_of_mem hk)
    rw [mem_finderCorners] at hf
    simp only [InFinder, InSquare] at hsep ⊢
    omega

/-- A timing module is dark where its running coordinate is even, the other one being 6 (R91). -/
theorem dark_of_mem_timingStep {side : Nat} {k : Stroke} (h : k ∈ timingStep side) :
    k.dark = decide ((k.x + k.y) % 2 = 0) := by
  simp only [timingStep, List.mem_flatMap, List.mem_cons, List.not_mem_nil, or_false] at h
  obtain ⟨i, -, rfl | rfl⟩ := h <;> refine decide_eq_decide.mpr ?_ <;> dsimp only <;> omega

theorem mem_alignmentStep_colour {version : Nat} (h40 : version ≤ 40) {k : Stroke} (h : k ∈ alignmentStep version) :
    ∃ cx cy, AlignmentCentre version cx cy ∧ k ∈ alignmentStrokes cx cy := by
  obtain ⟨⟨cx, cy⟩, hc, hk⟩ := List.mem_flatMap.mp h
  exact ⟨cx, cy, (mem_alignmentCenters h40).mp hc, hk⟩

theorem dark_of_mem_reserveStep {version : Nat} {k : Stroke} (h : k ∈ reserveStep version) : k.dark = false := by
  unfold reserveStep versionStrokes formatStrokes at h
  split at h <;> simp only [List.mem_append, List.mem_flatMap, List.mem_map, List.not_mem_nil, or_false] at h
  · rcases h with ⟨_, -, _, -, rfl⟩ | ⟨_, -, _, -, rfl⟩ <;> rfl
  · obtain ⟨_, -, _, -, rfl⟩ := h
    rfl

theorem mem_reserveStep {version x y : Nat} :
    (x, y) ∈ strokeCells (reserveStep version) ↔ InFormat (innerSide version) x y ∨ InVersion version x y := by
  rw [reserveStep, strokeCells_append, List.mem_append, mem_formatStrokes, mem_versionStrokes]

theorem mem_darkModuleStep {version x y : Nat} :
    (x, y) ∈ strokeCells (darkModuleStep version) ↔ x = 8 ∧ y = 4 * version + 9 := by
  simp [strokeCells, darkModuleStep]

/-! ### Where the steps' modules stand -/

/-- Two centre coordinates of R41 are equal or at least 5 apart, and all are even. -/
theorem alignCenters_apart {version : Nat} (h40 : version ≤ 40) {c c' : Nat} (hc : c ∈ alignCenters version)
    (hc' : c' ∈ alignCenters version) : c % 2 = 0 ∧ (c = c' ∨ c + 5 ≤ c' ∨ c' + 5 ≤ c) := by
  have table : ∀ v < 41, ∀ c ∈ alignCenters v, ∀ c' ∈ alignCenters v,
      c % 2 = 0 ∧ (c = c' ∨ c + 5 ≤ c' ∨ c' + 5 ≤ c) := by decide
  exact table version (by omega) c hc c' hc'

/-- A coordinate lies in the span of one centre only. -/
theorem alignCenters_eq_of_span {version : Nat} (h40 : version ≤ 40) {c c' a : Nat} (hc : c ∈ alignCenters version)
    (hc' : c' ∈ alignCenters version) (h : c - 2 ≤ a ∧ a < c - 2 + 5) (h' : c' - 2 ≤ a ∧ a < c' - 2 + 5) : c = c' := by
  have apart := (alignCenters_apart h40 hc hc').2
  have h6 := (alignCenters_place h40 hc).2
  have h6' := (alignCenters_place h40 hc').2
  have hside : innerSide version = 17 + 4 * version := rfl
  omega

/-- The format modules stand on row and column 8 near the finders (44_mask.md R103). -/
theorem InFormat.place {side x y : Nat} (hs : 21 ≤ side) (h : InFormat side x y) :
    x = 8 ∧ (y ≤ 5 ∨ y = 7 ∨ y = 8 ∨ side ≤ y + 7) ∨ y = 8 ∧ (x ≤ 5 ∨ x = 7 ∨ x = 8 ∨ side ≤ x + 8) := by
  obtain ⟨i, hi, h⟩ := h
  unfold formatCells at h
  split_ifs at h <;> simp only [List.mem_cons, Prod.mk.injEq, List.not_mem_nil, or_false] at h <;> omega

/-- The version modules stand next to two finder areas (R105). -/
theorem InVersion.place {version x y : Nat} (h : InVersion version x y) :
    7 ≤ version ∧ (innerSide version ≤ x + 11 ∧ x + 9 ≤ innerSide version ∧ y ≤ 5 ∨
      innerSide version ≤ y + 11 ∧ y + 9 ≤ innerSide version ∧ x ≤ 5) := by
  obtain ⟨h7, i, hi, h⟩ := h
  have hside : innerSide version = 17 + 4 * version := rfl
  simp only [versionCells, List.mem_cons, Prod.mk.injEq, List.not_mem_nil, or_false] at h
  omega

/-- The centres of R92: on a timing line away from the finders, or away from both. -/
theorem AlignmentCentre.place {version cx cy : Nat} (h40 : version ≤ 40) (h : AlignmentCentre version cx cy) :
    2 ≤ version ∧ (cx = 6 ∧ 16 ≤ cy ∧ cy + 16 ≤ innerSide version ∨
      cy = 6 ∧ 16 ≤ cx ∧ cx + 16 ≤ innerSide version ∨
      16 ≤ cx ∧ cx + 7 ≤ innerSide version ∧ 16 ≤ cy ∧ cy + 7 ≤ innerSide version) := by
  obtain ⟨hx, hy, h⟩ := h
  obtain ⟨h2, px⟩ := alignCenters_place h40 hx
  obtain ⟨-, py⟩ := alignCenters_place h40 hy
  have hside : innerSide version = 17 + 4 * version := rfl
  simp only [ne_eq, Prod.mk.injEq] at h
  refine ⟨h2, ?_⟩
  rcases px with hx | hx | hx
  · exact .inl (by omega)
  · exact .inr (.inr (by omega))
  · omega

theorem InAlignment.place {version x y : Nat} (h40 : version ≤ 40) (h : InAlignment version x y) :
    2 ≤ version ∧ (4 ≤ x ∧ x ≤ 8 ∧ 14 ≤ y ∧ y + 14 ≤ innerSide version ∨
      4 ≤ y ∧ y ≤ 8 ∧ 14 ≤ x ∧ x + 14 ≤ innerSide version ∨ 14 ≤ x ∧ 14 ≤ y) := by
  obtain ⟨cx, -, cy, -, hc, hin⟩ := h
  have := AlignmentCentre.place h40 hc
  simp only [InSquare] at hin
  omega

/-- The steps after the first write nothing in the finder areas. -/
theorem InFinderArea.not_later {version x y : Nat} (h1 : 1 ≤ version) (h40 : version ≤ 40)
    (h : InFinderArea (innerSide version) x y) :
    ¬ InTiming (innerSide version) x y ∧ ¬ InAlignment version x y ∧ ¬(x = 8 ∧ y = 4 * version + 9) ∧
      ¬(InFormat (innerSide version) x y ∨ InVersion version x y) := by
  have hside : innerSide version = 17 + 4 * version := rfl
  simp only [InFinderArea, InSquare] at h
  refine ⟨fun ht => ?_, fun ha => ?_, fun hd => ?_, fun hr => ?_⟩
  · simp only [InTiming] at ht
    omega
  · have := InAlignment.place h40 ha
    omega
  · omega
  · rcases hr with hf | hv
    · have := InFormat.place (by omega) hf
      omega
    · have := InVersion.place hv
      omega

/-- The steps after the third write no timing or alignment module. -/
theorem not_later_of_timing_or_alignment {version x y : Nat} (h1 : 1 ≤ version) (h40 : version ≤ 40)
    (h : InTiming (innerSide version) x y ∨ InAlignment version x y) :
    ¬(x = 8 ∧ y = 4 * version + 9) ∧ ¬(InFormat (innerSide version) x y ∨ InVersion version x y) := by
  have hside : innerSide version = 17 + 4 * version := rfl
  have hplace : y = 6 ∧ 8 ≤ x ∧ x ≤ innerSide version - 9 ∨ x = 6 ∧ 8 ≤ y ∧ y ≤ innerSide version - 9 ∨
      4 ≤ x ∧ x ≤ 8 ∧ 14 ≤ y ∧ y + 14 ≤ innerSide version ∨
      4 ≤ y ∧ y ≤ 8 ∧ 14 ≤ x ∧ x + 14 ≤ innerSide version ∨ 14 ≤ x ∧ 14 ≤ y := by
    rcases h with ht | ha
    · simp only [InTiming] at ht
      omega
    · have := InAlignment.place h40 ha
      omega
  refine ⟨fun hd => by omega, ?_⟩
  rintro (hf | hv)
  · have := InFormat.place (by omega) hf
    omega
  · have := InVersion.place hv
    omega

/-- The reservations leave the dark module. -/
theorem darkModule_not_reserved {version : Nat} (h1 : 1 ≤ version) :
    ¬(InFormat (innerSide version) 8 (4 * version + 9) ∨ InVersion version 8 (4 * version + 9)) := by
  have hside : innerSide version = 17 + 4 * version := rfl
  rintro (hf | hv)
  · have := InFormat.place (by omega) hf
    omega
  · have := InVersion.place hv
    omega

/-! ### The colour of each function module -/

theorem Grid.readInner_paint_append_of_not_mem (g : Grid) (ks : List Stroke) {ls : List Stroke} {x y : Nat}
    (h : (x, y) ∉ strokeCells ls) : (g.paint (ks ++ ls)).readInner x y = (g.paint ks).readInner x y := by
  rw [Grid.paint_append, Grid.readInner_paint_of_not_mem_cells _ h]

/-- Where an alignment pattern crosses a timing line, their colours agree (R91, R92). -/
theorem timing_eq_alignment {version cx cy dx dy : Nat} (h40 : version ≤ 40) (hc : AlignmentCentre version cx cy)
    (hx : dx < 5) (hy : dy < 5) (ht : InTiming (innerSide version) (cx - 2 + dx) (cy - 2 + dy)) :
    decide ((cx - 2 + dx + (cy - 2 + dy)) % 2 = 0) = decide (max (absDiff dx 2) (absDiff dy 2) ≠ 1) := by
  have hplace := AlignmentCentre.place h40 hc
  have ex := (alignCenters_apart h40 hc.1 hc.1).1
  have ey := (alignCenters_apart h40 hc.2.1 hc.2.1).1
  refine decide_eq_decide.mpr ?_
  unfold absDiff
  rcases ht with ⟨hrow, -, -⟩ | ⟨hcol, -, -⟩
  · obtain rfl : dy = 2 := by omega
    clear hplace
    omega
  · obtain rfl : dx = 2 := by omega
    clear hplace
    omega

section
variable {version : Nat} (h1 : 1 ≤ version) (h40 : version ≤ 40)
include h1 h40

/-- In a finder area the colour is that of step 1. -/
theorem readInner_functionModule_of_finderArea {x y : Nat} (h : InFinderArea (innerSide version) x y) :
    (paintFunction Grids.zero version).module.readInner x y =
      (Grid.zero.paint (finderStep (innerSide version))).readInner x y := by
  have hs : 21 ≤ innerSide version := by unfold innerSide; omega
  obtain ⟨ht, ha, hd, hr⟩ := InFinderArea.not_later h1 h40 h
  rw [paintFunction_zero_module, functionStrokes,
    Grid.readInner_paint_append_of_not_mem _ _ (mt mem_reserveStep.mp hr),
    Grid.readInner_paint_append_of_not_mem _ _ (mt mem_darkModuleStep.mp hd),
    Grid.readInner_paint_append_of_not_mem _ _ (mt (mem_alignmentStep h40).mp ha),
    Grid.readInner_paint_append_of_not_mem _ _ (mt (mem_timingStep hs).mp ht)]

/-- A finder pattern: dark, light, dark, dark by the distance from its edge (R90). -/
theorem readInner_finder {fx fy : Nat} (hf : (fx, fy) ∈ finderCorners (innerSide version)) {dx dy : Nat} (hx : dx < 7)
    (hy : dy < 7) : (paintFunction Grids.zero version).module.readInner (fx + dx) (fy + dy) =
      decide (max (absDiff dx 3) (absDiff dy 3) ≠ 2) := by
  have hs : 21 ≤ innerSide version := by unfold innerSide; omega
  have hle := innerSide_le h40
  have hcorner := mem_finderCorners.mp hf
  have harea : InFinderArea (innerSide version) (fx + dx) (fy + dy) := by
    simp only [InFinderArea, InSquare]
    omega
  rw [readInner_functionModule_of_finderArea h1 h40 harea]
  refine Grid.readInner_paint_of_mem _ _ _ _ _ (by omega) (by omega)
    (mem_strokeCells.mp ((mem_finderStep hs).mpr harea)) fun k hk ex ey => ?_
  rcases mem_finderStep_colour hs hk with ⟨fx', fy', hf', hk⟩ | ⟨hout, -⟩
  · obtain ⟨dx', hx', dy', hy', rfl⟩ := mem_ringSquare_iff.mp hk
    have hcorner' := mem_finderCorners.mp hf'
    dsimp only at ex ey ⊢
    obtain ⟨rfl, rfl⟩ : dx' = dx ∧ dy' = dy := by omega
    rfl
  · rw [← ex, ← ey] at hout
    simp only [InFinder, InSquare] at hout
    omega

/-- A separator is light (R90). -/
theorem readInner_separator {x y : Nat} (h : InFinderArea (innerSide version) x y)
    (hout : ¬ InFinder (innerSide version) x y) :
    (paintFunction Grids.zero version).module.readInner x y = false := by
  have hs : 21 ≤ innerSide version := by unfold innerSide; omega
  have hle := innerSide_le h40
  have hlt := FunctionModule.lt h1 h40 (.inl h)
  rw [readInner_functionModule_of_finderArea h1 h40 h]
  refine Grid.readInner_paint_of_mem _ _ _ _ _ (by omega) (by omega)
    (mem_strokeCells.mp ((mem_finderStep hs).mpr h)) fun k hk ex ey => ?_
  rcases mem_finderStep_colour hs hk with ⟨fx, fy, hf, hk⟩ | ⟨-, hlight⟩
  · have hsq := mem_ringSquare.mp (mem_strokeCells_of_mem hk)
    rw [← ex, ← ey] at hsq
    rw [mem_finderCorners] at hf
    simp only [InFinder, InSquare] at hout hsq
    omega
  · exact hlight

/-- A timing or alignment module has the colour on which the strokes of steps 2 and 3 at it agree. -/
theorem readInner_timing_or_alignment {x y : Nat} {b : Bool}
    (h : InTiming (innerSide version) x y ∨ InAlignment version x y)
    (timing : InTiming (innerSide version) x y → decide ((x + y) % 2 = 0) = b)
    (alignment : ∀ cx cy, AlignmentCentre version cx cy → ∀ dx < 5, ∀ dy < 5, x = cx - 2 + dx → y = cy - 2 + dy →
      decide (max (absDiff dx 2) (absDiff dy 2) ≠ 1) = b) :
    (paintFunction Grids.zero version).module.readInner x y = b := by
  have hs : 21 ≤ innerSide version := by unfold innerSide; omega
  have hle := innerSide_le h40
  have hlt := FunctionModule.lt h1 h40 (.inr (h.imp_right .inl))
  obtain ⟨hd, hr⟩ := not_later_of_timing_or_alignment h1 h40 h
  rw [paintFunction_zero_module, functionStrokes,
    Grid.readInner_paint_append_of_not_mem _ _ (mt mem_reserveStep.mp hr),
    Grid.readInner_paint_append_of_not_mem _ _ (mt mem_darkModuleStep.mp hd), List.append_assoc, Grid.paint_append]
  refine Grid.readInner_paint_of_mem _ _ _ _ _ (by omega) (by omega) (mem_strokeCells.mp ?_) fun k hk ex ey => ?_
  · rwa [strokeCells_append, List.mem_append, mem_timingStep hs, mem_alignmentStep h40]
  · rcases List.mem_append.mp hk with hk | hk
    · have ht := (mem_timingStep hs).mp (mem_strokeCells_of_mem hk)
      rw [← ex, ← ey] at ht
      rw [dark_of_mem_timingStep hk, ← ex, ← ey]
      exact timing ht
    · obtain ⟨cx, cy, hc, hk⟩ := mem_alignmentStep_colour h40 hk
      obtain ⟨dx, hx, dy, hy, rfl⟩ := mem_ringSquare_iff.mp hk
      exact alignment cx cy hc dx hx dy hy ex ey

/-- A timing module is dark where its running coordinate is even (R91). -/
theorem readInner_timing {x y : Nat} (h : InTiming (innerSide version) x y) :
    (paintFunction Grids.zero version).module.readInner x y = decide ((x + y) % 2 = 0) := by
  refine readInner_timing_or_alignment h1 h40 (.inl h) (fun _ => rfl) ?_
  rintro cx cy hc dx hx dy hy rfl rfl
  exact (timing_eq_alignment h40 hc hx hy h).symm

/-- An alignment pattern: dark, light, dark by the distance from its centre (R92). -/
theorem readInner_alignment {cx cy : Nat} (hc : AlignmentCentre version cx cy) {dx dy : Nat} (hx : dx < 5)
    (hy : dy < 5) : (paintFunction Grids.zero version).module.readInner (cx - 2 + dx) (cy - 2 + dy) =
      decide (max (absDiff dx 2) (absDiff dy 2) ≠ 1) := by
  have hin : InAlignment version (cx - 2 + dx) (cy - 2 + dy) :=
    ⟨cx, hc.1, cy, hc.2.1, hc, by simp only [InSquare]; omega⟩
  refine readInner_timing_or_alignment h1 h40 (.inr hin) (fun ht => timing_eq_alignment h40 hc hx hy ht) ?_
  intro cx' cy' hc' dx' hx' dy' hy' ex ey
  obtain rfl := alignCenters_eq_of_span (a := cx - 2 + dx) h40 hc.1 hc'.1 (by omega) (by omega)
  obtain rfl := alignCenters_eq_of_span (a := cy - 2 + dy) h40 hc.2.1 hc'.2.1 (by omega) (by omega)
  obtain ⟨rfl, rfl⟩ : dx' = dx ∧ dy' = dy := by omega
  rfl

/-- The dark module (R93). -/
theorem readInner_darkModule :
    (paintFunction Grids.zero version).module.readInner 8 (4 * version + 9) = true := by
  rw [paintFunction_zero_module, functionStrokes,
    Grid.readInner_paint_append_of_not_mem _ _ (mt mem_reserveStep.mp (darkModule_not_reserved h1)), Grid.paint_append,
    darkModuleStep, Grid.paint_cons, Grid.paint_nil, Grid.readInner_writeInner,
    if_pos ⟨rfl, rfl, (by decide : 8 + 4 < 185), (by omega : 4 * version + 9 + 4 < 185)⟩]

/-- Format and version modules are reserved light (R94). -/
theorem readInner_reserved {x y : Nat} (h : InFormat (innerSide version) x y ∨ InVersion version x y) :
    (paintFunction Grids.zero version).module.readInner x y = false := by
  have hle := innerSide_le h40
  have hlt := FunctionModule.lt h1 h40 (.inr (.inr (.inr (.inr h))))
  rw [paintFunction_zero_module, functionStrokes, Grid.paint_append]
  exact Grid.readInner_paint_of_mem _ _ _ _ _ (by omega) (by omega) (mem_strokeCells.mp (mem_reserveStep.mpr h))
    fun k hk _ _ => dark_of_mem_reserveStep hk

/-- Every other module is left light (R89). -/
theorem readInner_of_not_functionModule {x y : Nat} (h : ¬ FunctionModule version x y) :
    (paintFunction Grids.zero version).module.readInner x y = false := by
  rw [paintFunction_zero_module, Grid.readInner_paint_of_not_mem_cells _ (mt (mem_functionStrokes h1 h40).mp h),
    Grid.readInner_zero]

end

/-- Settles O25: each module has the colour of the step of R90 to R94 that names it, and where two steps do, they agree. -/
theorem symFunctionPaintsPatterns : Obligations.SymFunctionPaintsPatterns := by
  unfold Obligations.SymFunctionPaintsPatterns
  intro s hp hg h1 h40
  refine ⟨_, exec_symFunction_of_init hp, rfl, ?_⟩
  simp only [State.complete_grids, State.setSymbol_grids, hg]
  refine ⟨?finder, fun x y => readInner_separator h1 h40, ?timing, ?alignment, readInner_darkModule h1 h40,
    fun x y => readInner_reserved h1 h40, fun x y => readInner_of_not_functionModule h1 h40,
    paintFunction_zero_out _, rfl, rfl, symbolFrame_complete s _ _ _ _⟩
  case finder =>
    rintro ⟨fx, fy⟩ hf dx hx dy hy
    simpa only [absDiff_eq_natAbs, Nat.cast_ofNat] using readInner_finder h1 h40 hf hx hy
  case timing =>
    intro i h8 hi
    refine ⟨(readInner_timing h1 h40 (.inl ⟨rfl, h8, hi⟩)).trans ?_,
      (readInner_timing h1 h40 (.inr ⟨rfl, h8, hi⟩)).trans ?_⟩ <;>
    · refine decide_eq_decide.mpr ?_
      omega
  case alignment =>
    intro cx cy hc dx hx dy hy
    simpa only [absDiff_eq_natAbs, Nat.cast_ofNat] using readInner_alignment h1 h40 hc hx hy

/-! ## The dark module in every phase (43_symbol.md R93, 44_mask.md R113) -/

theorem functionModule_darkModule (version : Nat) : FunctionModule version 8 (4 * version + 9) :=
  .inr (.inr (.inr (.inl ⟨rfl, rfl⟩)))

/-- A module outside the format and version modules is that of MODULE, inverted where it is no function module and the
mask says so (44_mask.md R113). -/
theorem State.readInner_build_of_not_reserved {s : State} (m : MaskIdx) (h40 : s.versionNat ≤ 40) {x y : Nat}
    (hx : x < s.side) (hy : y < s.side) (h : ¬(InFormat s.side x y ∨ InVersion s.versionNat x y)) :
    (s.build m).readInner x y =
      (s.grids.module.readInner x y ^^ (!s.grids.func.readInner x y && maskAt m x y)) := by
  have hs : s.side ≤ 177 := innerSide_le h40
  obtain ⟨hf, hv⟩ := not_or.mp h
  rw [State.build, Grid.readInner_paint_of_not_mem_cells _ (mt mem_versionStrokes.mp hv),
    Grid.readInner_paint_of_not_mem_cells _ (mt mem_formatStrokes.mp hf),
    Grid.readInner_tabulate _ _ _ _ hs, decide_eq_true ⟨hx, hy⟩, Bool.true_and]

/-- SYM_PLACE leaves the dark module, which FUNC marks (R93, R100). -/
theorem PlacedGrids.readInner_darkModule {s : State} (h : PlacedGrids s) (h1 : 1 ≤ s.versionNat)
    (h40 : s.versionNat ≤ 40) :
    s.grids.func.readInner 8 (4 * s.versionNat + 9) = true ∧
      s.grids.module.readInner 8 (4 * s.versionNat + 9) = true := by
  have hf := functionModule_darkModule s.versionNat
  have hlt := hf.lt h1 h40
  have hfunc : s.grids.func.readInner 8 (4 * s.versionNat + 9) = true := by
    rw [h.func]
    exact (readInner_paintFunction_func h1 h40 hlt.1 hlt.2).mpr hf
  exact ⟨hfunc, (h.fixed _ _ hlt.1 hlt.2 hfunc).trans (Machine.readInner_darkModule h1 h40)⟩

/-- Settles O58: SYM_FUNCTION paints it, SYM_PLACE and the mask leave it as a function module, and the format and version
bits stand elsewhere. -/
theorem darkModuleAlwaysDark : Obligations.DarkModuleAlwaysDark := by
  unfold Obligations.DarkModuleAlwaysDark
  intro s hgeo hgrids
  have version (hp : s.phase ≠ .empty) : 1 ≤ s.versionNat ∧ s.versionNat ≤ 40 := by
    have hy := (geometryOK_iff hp).mp hgeo
    exact ⟨hy.version_pos, hy.version_le⟩
  have placed (hp : s.phase.allowsMask = true) : s.grids.func.readInner 8 (4 * s.versionNat + 9) = true ∧
      s.grids.module.readInner 8 (4 * s.versionNat + 9) = true := by
    obtain ⟨h1, h40⟩ := version (Phase.ne_empty_of_allowsMask hp)
    exact ((gridsOK_iff_placed hp).mp hgrids).readInner_darkModule h1 h40
  constructor
  case left =>
    intro hphase
    rcases List.mem_cons.mp hphase with hp | hp
    · obtain ⟨h1, h40⟩ := version (by rw [hp]; decide)
      rw [GridsOK, hp] at hgrids
      rw [hgrids.1]
      exact readInner_darkModule h1 h40
    · exact (placed ((Phase.allowsMask_iff _).mpr hp)).2
  case right =>
    intro hphase
    have hscore := (Phase.allowsScore_iff _).mpr hphase
    have hmask := (Phase.allowsMask_iff _).mpr (List.mem_cons_of_mem _ hphase)
    obtain ⟨h1, h40⟩ := version (Phase.ne_empty_of_allowsMask hmask)
    obtain ⟨hfunc, hmodule⟩ := placed hmask
    have hlt := (functionModule_darkModule s.versionNat).lt h1 h40
    rw [((gridsOK_iff_placed hmask).mp hgrids).out, if_pos hscore,
      State.readInner_build_of_not_reserved _ h40 hlt.1 hlt.2 (darkModule_not_reserved h1), hfunc, hmodule]
    rfl

end Sys2Proof.Machine

/-! ## The number of function modules (43_symbol.md R96) -/

namespace Sys2Proof.Machine

/-! ### Counting by a list of the modules -/

/-- A concatenation of blocks has no repetition when the blocks have none and an entry tells its block. -/
theorem nodup_flatMap_of_block {α β : Type} {l : List α} {f : α → List β} (hl : l.Nodup) (hf : ∀ a ∈ l, (f a).Nodup)
    (block : ∀ a ∈ l, ∀ b ∈ l, ∀ p ∈ f a, p ∈ f b → a = b) : (l.flatMap f).Nodup :=
  List.nodup_flatMap.mpr ⟨hf, hl.pairwise_of_forall_ne fun a ha b hb hne =>
    List.disjoint_left.mpr fun p hp hp' => hne (block a ha b hb p hp hp')⟩

theorem nodup_pair {α : Type} {a b : α} : [a, b].Nodup ↔ a ≠ b := by simp

theorem innerCells_nodup (side : Nat) : (innerCells side).Nodup := by
  refine nodup_flatMap_of_block List.nodup_range (fun y _ => ?_) fun y _ y' _ p hp hp' => ?_
  · exact List.nodup_range.map fun x x' e => congrArg Prod.fst e
  · obtain ⟨_, -, rfl⟩ := List.mem_map.mp hp
    obtain ⟨_, -, e⟩ := List.mem_map.mp hp'
    exact (congrArg Prod.snd e).symm

/-- The dark modules are counted by any list of them without repetition. -/
theorem Grid.countInner_true_eq_length {g : Grid} {side : Nat} {l : List (Nat × Nat)} (hl : l.Nodup)
    (hmem : ∀ x y, (x, y) ∈ l ↔ (x < side ∧ y < side) ∧ g.readInner x y = true) :
    g.countInner side true = l.length := by
  rw [Grid.countInner_eq_countP, List.countP_eq_length_filter]
  refine ((List.perm_ext_iff_of_nodup ((innerCells_nodup side).filter _) hl).mpr ?_).length_eq
  rintro ⟨x, y⟩
  rw [hmem, List.mem_filter, mem_innerCells, beq_iff_eq]

/-! ### The modules of each step, without repetition -/

theorem ringSquare_nodup (x0 y0 n : Nat) (darkAt : Nat → Bool) : (strokeCells (ringSquare x0 y0 n darkAt)).Nodup := by
  simp only [strokeCells, ringSquare, List.map_flatMap, List.map_map, Function.comp_def]
  refine nodup_flatMap_of_block List.nodup_range (fun dx _ => ?_) fun dx _ dx' _ p hp hp' => ?_
  · exact List.nodup_range.map fun dy dy' e => Nat.add_left_cancel (congrArg Prod.snd e)
  · obtain ⟨_, -, rfl⟩ := List.mem_map.mp hp
    obtain ⟨_, -, e⟩ := List.mem_map.mp hp'
    exact (Nat.add_left_cancel (congrArg Prod.fst e)).symm

theorem ringSquare_length (x0 y0 n : Nat) (darkAt : Nat → Bool) :
    (strokeCells (ringSquare x0 y0 n darkAt)).length = n * n := by
  simp [strokeCells, ringSquare]

/-- The modules of the three finder areas. -/
def finderAreaCells (side : Nat) : List (Nat × Nat) :=
  (finderAreas side).flatMap fun (ax, ay) => strokeCells (ringSquare ax ay 8 fun _ => true)

theorem mem_finderAreaCells {side x y : Nat} : (x, y) ∈ finderAreaCells side ↔ InFinderArea side x y := by
  simp only [finderAreaCells, finderAreas, List.mem_flatMap, mem_ringSquare, List.mem_cons, List.not_mem_nil, or_false,
    exists_eq_or_imp, exists_eq_left]

theorem finderAreaCells_nodup {side : Nat} (hs : 21 ≤ side) : (finderAreaCells side).Nodup := by
  refine nodup_flatMap_of_block ?_ (fun _ _ => ringSquare_nodup _ _ _ _) ?_
  · simp only [finderAreas, List.nodup_cons, List.mem_cons, Prod.mk.injEq, List.not_mem_nil, or_false,
      not_false_eq_true, List.nodup_nil, and_true]
    omega
  · rintro ⟨ax, ay⟩ ha ⟨ax', ay'⟩ ha' ⟨x, y⟩ hp hp'
    simp only [finderAreas, List.mem_cons, Prod.mk.injEq, List.not_mem_nil, or_false] at ha ha'
    rw [mem_ringSquare, InSquare] at hp hp'
    rw [Prod.mk.injEq]
    omega

theorem finderAreaCells_length (side : Nat) : (finderAreaCells side).length = 192 := by
  simp [finderAreaCells, finderAreas, ringSquare_length]

theorem timingCells_nodup (side : Nat) : (strokeCells (timingStep side)).Nodup := by
  simp only [strokeCells, timingStep, List.map_flatMap, List.map_cons, List.map_nil]
  refine nodup_flatMap_of_block List.nodup_range (fun k _ => ?_) ?_
  · rw [nodup_pair, ne_eq, Prod.mk.injEq]
    omega
  · rintro k - k' - ⟨x, y⟩ hp hp'
    simp only [List.mem_cons, Prod.mk.injEq, List.not_mem_nil, or_false] at hp hp'
    omega

theorem timingCells_length (side : Nat) : (strokeCells (timingStep side)).length = 2 * (side - 16) := by
  simp [strokeCells, timingStep, Nat.mul_comm]

/-- The coordinates a pattern centred at c spans, without a timing line through its centre. -/
def offTiming (c : Nat) : List Nat := if c = 6 then [4, 5, 7, 8] else [c - 2, c - 1, c, c + 1, c + 2]

theorem mem_offTiming {c a : Nat} (hc : 2 ≤ c) : a ∈ offTiming c ↔ (c - 2 ≤ a ∧ a < c - 2 + 5) ∧ ¬(c = 6 ∧ a = 6) := by
  unfold offTiming
  split <;> simp only [List.mem_cons, List.not_mem_nil, or_false] <;> omega

theorem offTiming_nodup {c : Nat} (hc : 2 ≤ c) : (offTiming c).Nodup := by
  unfold offTiming
  split
  · decide
  · simp only [List.nodup_cons, List.mem_cons, List.not_mem_nil, or_false, not_false_eq_true, List.nodup_nil, and_true]
    omega

/-- The modules of the alignment patterns that lie on no timing line. -/
def alignmentOwnCells (version : Nat) : List (Nat × Nat) :=
  (alignmentCenters version).flatMap fun (cx, cy) => offTiming cx ×ˢ offTiming cy

theorem mem_alignmentOwnCells {version x y : Nat} (h40 : version ≤ 40) :
    (x, y) ∈ alignmentOwnCells version ↔ InAlignment version x y ∧ ¬ InTiming (innerSide version) x y := by
  have centre {cx cy : Nat} (hc : AlignmentCentre version cx cy) :
      (x, y) ∈ offTiming cx ×ˢ offTiming cy ↔
        InSquare x y (cx - 2) (cy - 2) 5 ∧ ¬ InTiming (innerSide version) x y := by
    have := AlignmentCentre.place h40 hc
    rw [List.mem_product, mem_offTiming (by omega), mem_offTiming (by omega)]
    simp only [InSquare, InTiming]
    omega
  simp only [alignmentOwnCells, List.mem_flatMap, Prod.exists]
  constructor
  · rintro ⟨cx, cy, hc, hin⟩
    have hc := (mem_alignmentCenters h40).mp hc
    obtain ⟨hsq, ht⟩ := (centre hc).mp hin
    exact ⟨⟨cx, hc.1, cy, hc.2.1, hc, hsq⟩, ht⟩
  · rintro ⟨⟨cx, -, cy, -, hc, hsq⟩, ht⟩
    exact ⟨cx, cy, (mem_alignmentCenters h40).mpr hc, (centre hc).mpr ⟨hsq, ht⟩⟩

/-- The centres of R92 are listed once, in the order of their coordinates' list. -/
theorem alignmentCenters_nodup {version : Nat} (h40 : version ≤ 40) : (alignmentCenters version).Nodup := by
  have table : ∀ v < 41, (alignCenters v).Nodup := by decide
  have hl := table version (by omega)
  exact (hl.product hl).filter _

theorem alignmentOwnCells_nodup {version : Nat} (h40 : version ≤ 40) : (alignmentOwnCells version).Nodup := by
  refine nodup_flatMap_of_block (alignmentCenters_nodup h40) ?_ ?_
  · rintro ⟨cx, cy⟩ hc
    have := AlignmentCentre.place h40 ((mem_alignmentCenters h40).mp hc)
    exact (offTiming_nodup (by omega)).product (offTiming_nodup (by omega))
  · rintro ⟨cx, cy⟩ hc ⟨cx', cy'⟩ hc' ⟨x, y⟩ hp hp'
    have hc := (mem_alignmentCenters h40).mp hc
    have hc' := (mem_alignmentCenters h40).mp hc'
    have hplace := AlignmentCentre.place h40 hc
    have hplace' := AlignmentCentre.place h40 hc'
    rw [List.mem_product, mem_offTiming (by omega), mem_offTiming (by omega)] at hp hp'
    exact Prod.ext (alignCenters_eq_of_span h40 hc.1 hc'.1 hp.1.1 hp'.1.1)
      (alignCenters_eq_of_span h40 hc.2.1 hc'.2.1 hp.2.1 hp'.2.1)

/-- The strokes of step 5 name the cells of R103 and R105. -/
theorem strokeCells_reserveStep (version : Nat) : strokeCells (reserveStep version) =
    (List.range 15).flatMap (formatCells (innerSide version)) ++
      if 7 ≤ version then (List.range 18).flatMap (versionCells (innerSide version)) else [] := by
  have cells (l : List Nat) (f : Nat → List (Nat × Nat)) :
      strokeCells (l.flatMap fun i => (f i).map fun (x, y) => ⟨x, y, false⟩) = l.flatMap f := by
    rw [strokeCells, List.map_flatMap]
    exact congrArg (l.flatMap ·) (funext fun i => strokeCells_map_cells (f i) false)
  rw [reserveStep, strokeCells_append, formatStrokes, cells, versionStrokes]
  split
  · rw [cells]
  · rfl

theorem formatCells_nodup {side i : Nat} (hs : 21 ≤ side) (hi : i < 15) : (formatCells side i).Nodup := by
  unfold formatCells
  split_ifs <;> rw [nodup_pair, ne_eq, Prod.mk.injEq] <;> omega

/-- A format module holds one bit of the word (R103). -/
theorem formatCells_bit {side i j x y : Nat} (hs : 21 ≤ side) (hi : i < 15) (hj : j < 15)
    (h : (x, y) ∈ formatCells side i) (h' : (x, y) ∈ formatCells side j) : i = j := by
  unfold formatCells at h h'
  split_ifs at h h' <;> simp only [List.mem_cons, Prod.mk.injEq, List.not_mem_nil, or_false] at h h' <;> omega

theorem formatCells_length (side i : Nat) : (formatCells side i).length = 2 := by
  unfold formatCells
  split_ifs <;> rfl

/-- No module is reserved twice (R94). -/
theorem reserveCells_nodup {version : Nat} (h1 : 1 ≤ version) : (strokeCells (reserveStep version)).Nodup := by
  have hside : innerSide version = 17 + 4 * version := rfl
  rw [strokeCells_reserveStep, List.nodup_append']
  refine ⟨?format, ?version, List.disjoint_left.mpr ?apart⟩
  case format =>
    refine nodup_flatMap_of_block List.nodup_range (fun i hi => ?_) ?_
    · exact formatCells_nodup (by omega) (List.mem_range.mp hi)
    · rintro i hi j hj ⟨x, y⟩ hp hp'
      exact formatCells_bit (by omega) (List.mem_range.mp hi) (List.mem_range.mp hj) hp hp'
  case version =>
    split
    · refine nodup_flatMap_of_block List.nodup_range (fun i hi => ?_) ?_
      · rw [List.mem_range] at hi
        rw [versionCells, nodup_pair, ne_eq, Prod.mk.injEq]
        omega
      · rintro i hi j hj ⟨x, y⟩ hp hp'
        simp only [versionCells, List.mem_cons, Prod.mk.injEq, List.not_mem_nil, or_false, List.mem_range] at *
        omega
    · exact List.nodup_nil
  case apart =>
    rintro ⟨x, y⟩ hf hv
    split at hv
    · next h7 =>
      obtain ⟨i, hi, hf⟩ := List.mem_flatMap.mp hf
      obtain ⟨j, hj, hv⟩ := List.mem_flatMap.mp hv
      have hf := InFormat.place (by omega) ⟨i, List.mem_range.mp hi, hf⟩
      have hv := InVersion.place ⟨h7, j, List.mem_range.mp hj, hv⟩
      omega
    · cases hv

theorem reserveCells_length (version : Nat) :
    (strokeCells (reserveStep version)).length = 30 + if 7 ≤ version then 36 else 0 := by
  rw [strokeCells_reserveStep]
  split <;> simp [List.length_flatMap, formatCells_length, versionCells]

/-! ### All function modules -/

/-- The function modules, each once. -/
def functionCells (version : Nat) : List (Nat × Nat) :=
  finderAreaCells (innerSide version) ++ (strokeCells (timingStep (innerSide version)) ++
    (alignmentOwnCells version ++ (strokeCells (darkModuleStep version) ++ strokeCells (reserveStep version))))

theorem mem_functionCells {version x y : Nat} (h1 : 1 ≤ version) (h40 : version ≤ 40) :
    (x, y) ∈ functionCells version ↔ FunctionModule version x y := by
  have hs : 21 ≤ innerSide version := by unfold innerSide; omega
  have offTiming (t a z : Prop) : t ∨ (a ∧ ¬ t) ∨ z ↔ t ∨ a ∨ z := by tauto
  simp only [functionCells, List.mem_append, mem_finderAreaCells, mem_timingStep hs, mem_alignmentOwnCells h40,
    mem_darkModuleStep, mem_reserveStep]
  exact or_congr_right (offTiming _ _ _)

theorem functionCells_nodup {version : Nat} (h1 : 1 ≤ version) (h40 : version ≤ 40) :
    (functionCells version).Nodup := by
  have hs : 21 ≤ innerSide version := by unfold innerSide; omega
  refine List.nodup_append'.mpr ⟨finderAreaCells_nodup hs, List.nodup_append'.mpr ⟨timingCells_nodup _,
    List.nodup_append'.mpr ⟨alignmentOwnCells_nodup h40, List.nodup_append'.mpr ⟨List.nodup_singleton _,
      reserveCells_nodup h1, ?dark⟩, ?alignment⟩, ?timing⟩, ?finder⟩ <;>
    refine List.disjoint_left.mpr ?_ <;> rintro ⟨x, y⟩ h <;>
    simp only [List.mem_append, mem_timingStep hs, mem_alignmentOwnCells h40, mem_darkModuleStep, mem_reserveStep]
  case finder =>
    obtain ⟨ht, ha, hd, hr⟩ := InFinderArea.not_later h1 h40 (mem_finderAreaCells.mp h)
    exact not_or.mpr ⟨ht, not_or.mpr ⟨fun h => ha h.1, not_or.mpr ⟨hd, hr⟩⟩⟩
  case timing =>
    have ht := (mem_timingStep hs).mp h
    obtain ⟨hd, hr⟩ := not_later_of_timing_or_alignment h1 h40 (.inl ht)
    exact not_or.mpr ⟨fun h => h.2 ht, not_or.mpr ⟨hd, hr⟩⟩
  case alignment =>
    obtain ⟨hd, hr⟩ := not_later_of_timing_or_alignment h1 h40 (.inr ((mem_alignmentOwnCells h40).mp h).1)
    exact not_or.mpr ⟨hd, hr⟩
  case dark =>
    obtain ⟨rfl, rfl⟩ := mem_darkModuleStep.mp h
    exact darkModule_not_reserved h1

/-- The number of function modules: finder areas, timing, alignment patterns off the timing lines, dark module, format,
version. -/
def functionCount (version : Nat) : Nat :=
  192 + (2 * (innerSide version - 16) +
    (((alignmentCenters version).map fun (cx, cy) => (offTiming cx).length * (offTiming cy).length).sum +
      (1 + (30 + if 7 ≤ version then 36 else 0))))

theorem functionCells_length (version : Nat) : (functionCells version).length = functionCount version := by
  have hdark : (strokeCells (darkModuleStep version)).length = 1 := rfl
  simp only [functionCells, List.length_append, finderAreaCells_length, timingCells_length, reserveCells_length, hdark,
    alignmentOwnCells, List.length_flatMap, List.length_product, functionCount]

theorem countInner_paintFunction_used {version : Nat} (h1 : 1 ≤ version) (h40 : version ≤ 40) :
    (paintFunction Grids.zero version).used.countInner (innerSide version) true = functionCount version := by
  rw [← functionCells_length]
  refine Grid.countInner_true_eq_length (functionCells_nodup h1 h40) fun x y => ?_
  rw [mem_functionCells h1 h40, paintFunction_zero_used]
  constructor
  · intro h
    have hlt := h.lt h1 h40
    exact ⟨hlt, (readInner_paintFunction_func h1 h40 hlt.1 hlt.2).mpr h⟩
  · rintro ⟨⟨hx, hy⟩, h⟩
    exact (readInner_paintFunction_func h1 h40 hx hy).mp h

/-- The table of R96 is what the function modules leave of the symbol. -/
theorem freeTable_eq : ∀ v < 40,
    freeTable[v]? = some (innerSide (v + 1) * innerSide (v + 1) - functionCount (v + 1)) := by decide

/-- Settles O27: SYM_FREE is what the function modules leave, and the function modules are counted kind by kind. -/
theorem symFunctionFreeCounts : Obligations.SymFunctionFreeCounts := by
  unfold Obligations.SymFunctionFreeCounts
  intro s hp hg h1 h40
  refine ⟨_, exec_symFunction_of_init hp, ?_⟩
  have hcount := Grid.countInner_add (paintFunction Grids.zero s.versionNat).used (innerSide s.versionNat)
  rw [countInner_paintFunction_used h1 h40] at hcount
  simp only [State.complete_sym, State.setSymbol_sym, hg]
  rw [State.side, toNat_ofNat_countInner _ h40, freeTable_eq _ (by omega), Nat.sub_add_cancel h1, ← hcount,
    Nat.add_sub_cancel]

end Sys2Proof.Machine

/-! ## The masked symbol (44_mask.md R101, R113, R114) -/

namespace Sys2Proof.Machine

theorem State.side_eq_succ (s : State) : s.side = 4 * s.versionNat + 16 + 1 := by
  unfold State.side innerSide
  omega

/-- The machine's predicates are R101's. -/
theorem maskAt_eq_decide (m : MaskIdx) (x y : Nat) : maskAt m x y = decide (MaskInverts m.val x y) := by
  fin_cases m <;> simp [maskAt, MaskInverts]

/-- A module painted from a table of cells holds the bit whose cells it is among. -/
theorem Grid.readInner_paint_cells (g : Grid) {n : Nat} {cells : Nat → List (Nat × Nat)} (bit : Nat → Bool)
    {i x y : Nat} (hx : x < 177) (hy : y < 177) (hi : i < n) (hmem : (x, y) ∈ cells i)
    (hone : ∀ j < n, (x, y) ∈ cells j → j = i) :
    (g.paint ((List.range n).flatMap fun j => (cells j).map fun (a, b) => ⟨a, b, bit j⟩)).readInner x y = bit i := by
  refine Grid.readInner_paint_of_mem g _ x y (bit i) (by omega) (by omega) ?hex ?hall
  case hex =>
    refine ⟨⟨x, y, bit i⟩, List.mem_flatMap.mpr ⟨i, List.mem_range.mpr hi, ?_⟩, rfl, rfl⟩
    exact List.mem_map.mpr ⟨_, hmem, rfl⟩
  case hall =>
    intro k hk hkx hky
    obtain ⟨j, hj, hk⟩ := List.mem_flatMap.mp hk
    obtain ⟨⟨a, b⟩, hab, rfl⟩ := List.mem_map.mp hk
    subst hkx hky
    exact congrArg bit (hone j (List.mem_range.mp hj) hab)

/-- A version module holds one bit of the word (R105). -/
theorem versionCells_bit {side i j x y : Nat} (hs : 45 ≤ side) (hj : j < 18)
    (h : (x, y) ∈ versionCells side i) (h' : (x, y) ∈ versionCells side j) : i = j := by
  simp only [versionCells, List.mem_cons, Prod.mk.injEq, List.not_mem_nil, or_false] at h h'
  omega

theorem not_inVersion_of_inFormat {version x y : Nat} (h : InFormat (innerSide version) x y) :
    ¬ InVersion version x y := by
  intro hv
  have hside : innerSide version = 17 + 4 * version := rfl
  have hv := InVersion.place hv
  have hf := InFormat.place (by omega) h
  omega

/-- The format bits stand at the format modules (R103, R113). -/
theorem State.readInner_build_format {s : State} (m : MaskIdx) (h1 : 1 ≤ s.versionNat) (h40 : s.versionNat ≤ 40)
    {i x y : Nat} (hi : i < 15) (h : (x, y) ∈ formatCells s.side i) :
    (s.build m).readInner x y = (formatWord s.sym.level m).getLsbD i := by
  have hs : s.side ≤ 177 := innerSide_le h40
  have h21 : 21 ≤ s.side := by rw [State.side_eq_succ]; omega
  have hlt := formatCells_lt h21 hi h
  rw [State.build, Grid.readInner_paint_of_not_mem_cells _
    (mt mem_versionStrokes.mp (not_inVersion_of_inFormat ⟨i, hi, h⟩)), formatStrokes]
  exact Grid.readInner_paint_cells _ _ (by omega) (by omega) hi h fun j hj h' => formatCells_bit h21 hj hi h' h

/-- The version bits stand at the version modules (R105, R113). -/
theorem State.readInner_build_version {s : State} (m : MaskIdx) (h7 : 7 ≤ s.versionNat) (h40 : s.versionNat ≤ 40)
    {i x y : Nat} (hi : i < 18) (h : (x, y) ∈ versionCells s.side i) :
    (s.build m).readInner x y = (versionWord s.versionNat).getLsbD i := by
  have hs : s.side ≤ 177 := innerSide_le h40
  have h45 : 45 ≤ s.side := by rw [State.side_eq_succ]; omega
  have hlt := versionCells_lt (by omega) hi h
  rw [State.build, versionStrokes, if_pos h7]
  exact Grid.readInner_paint_cells _ _ (by omega) (by omega) hi h fun j hj h' => versionCells_bit h45 hi h' h

/-- Everything outside the masked symbol is light (R113). -/
theorem State.quietLight_build {s : State} (m : MaskIdx) (h1 : 1 ≤ s.versionNat) : QuietLight (s.build m) s.side := by
  have h21 : 21 ≤ s.side := by rw [State.side_eq_succ]; omega
  refine quietLight_paint_of_cells (quietLight_paint_of_cells (quietLight_tabulate _ _) fun x y h => ?_) fun x y h => ?_
  · obtain ⟨i, hi, hf⟩ := mem_formatStrokes.mp h
    exact formatCells_lt h21 hi hf
  · obtain ⟨-, i, hi, hv⟩ := mem_versionStrokes.mp h
    exact versionCells_lt h21 hi hv

theorem versionWord_of_lt {version : Nat} (h : version < 7) : versionWord version = 0 := if_neg (Nat.not_le.mpr h)

/-- Settles O32: OUT is the masked symbol, read at a data or fixed module, a format module, a version module and
outside. -/
theorem symApplyMaskBuildsOut : Obligations.SymApplyMaskBuildsOut := by
  unfold Obligations.SymApplyMaskBuildsOut
  intro s m hphase h1 h40
  refine ⟨_, exec_symApplyMask_of_allowed ((Phase.allowsMask_iff _).mpr hphase) m, rfl, rfl, ?verWord, rfl, rfl,
    ?plain, ?format, ?version, State.quietLight_build m h1, symbolFrame_complete s _ _ _ _⟩
  case verWord =>
    change versionWord s.versionNat = _
    split
    · rfl
    · next h => exact versionWord_of_lt (by omega)
  case plain =>
    intro x y hx hy hf hv
    rw [← maskAt_eq_decide]
    exact State.readInner_build_of_not_reserved m h40 hx hy (not_or.mpr ⟨hf, hv⟩)
  case format => exact fun i hi p hp => State.readInner_build_format m h1 h40 hi hp
  case version => exact fun h7 i hi p hp => State.readInner_build_version m h7 h40 hi hp

end Sys2Proof.Machine

/-! ## Format and version words (44_mask.md R102, R104) -/

namespace Sys2Proof.Machine

/-! ### Division of polynomials over GF(2) -/

/-- The product distributes over the sum of polynomials. -/
theorem carrylessMul_xor_left (a b g : Nat) : carrylessMul (a ^^^ b) g = carrylessMul a g ^^^ carrylessMul b g := by
  unfold carrylessMul
  suffices h : ∀ (l : List Nat) (x y : Nat),
      l.foldl (fun acc i => if g.testBit i then acc ^^^ (a ^^^ b) <<< i else acc) (x ^^^ y) =
        l.foldl (fun acc i => if g.testBit i then acc ^^^ a <<< i else acc) x ^^^
          l.foldl (fun acc i => if g.testBit i then acc ^^^ b <<< i else acc) y from h _ 0 0
  intro l
  induction l with
  | nil => intro x y; rfl
  | cons i l ih =>
    intro x y
    simp only [List.foldl_cons]
    rw [← ih]
    split
    · congr 1
      rw [Nat.shiftLeft_xor_distrib]
      ac_rfl
    · rfl

/-- One term of the product of x^k and g. -/
theorem testBit_mulTerm (g k acc i j : Nat) :
    (if g.testBit i then acc ^^^ 2 ^ k <<< i else acc).testBit j =
      (acc.testBit j ^^ (g.testBit i && decide (k + i = j))) := by
  cases g.testBit i
  · simp
  · rw [if_pos rfl, Nat.testBit_xor, Nat.shiftLeft_eq, ← pow_add, Nat.testBit_two_pow, Bool.true_and]

/-- The product with x^k shifts. -/
theorem carrylessMul_two_pow (k : Nat) {g : Nat} (hg : g < 2 ^ 32) : carrylessMul (2 ^ k) g = g <<< k := by
  have terms : ∀ n j,
      ((List.range n).foldl (fun acc i => if g.testBit i then acc ^^^ 2 ^ k <<< i else acc) 0).testBit j =
        (decide (k ≤ j ∧ j < k + n) && g.testBit (j - k)) := by
    intro n j
    induction n with
    | zero => simp
    | succ n ih =>
      rw [List.range_succ, List.foldl_append, List.foldl_cons, List.foldl_nil, testBit_mulTerm, ih]
      by_cases hj : k + n = j
      · subst hj
        simp
      · have hlt : (k ≤ j ∧ j < k + (n + 1)) ↔ (k ≤ j ∧ j < k + n) := by omega
        simp only [hj, hlt, decide_false, Bool.and_false, Bool.xor_false]
  refine Nat.eq_of_testBit_eq fun j => (terms 32 j).trans ?_
  rw [Nat.testBit_shiftLeft]
  by_cases hj : j < k + 32
  · simp [hj]
  · rw [Nat.testBit_lt_two_pow (hg.trans_le (Nat.pow_le_pow_right (by decide) (by omega : 32 ≤ j - k)))]
    simp

/-- v is a multiple of the polynomial g. -/
def IsMultiple (g v : Nat) : Prop := ∃ q, carrylessMul q g = v

theorem isMultiple_zero (g : Nat) : IsMultiple g 0 := ⟨0, by simpa using carrylessMul_xor_left 0 0 g⟩

theorem IsMultiple.xor {g v w : Nat} (hv : IsMultiple g v) (hw : IsMultiple g w) : IsMultiple g (v ^^^ w) := by
  obtain ⟨p, rfl⟩ := hv
  obtain ⟨q, rfl⟩ := hw
  exact ⟨p ^^^ q, carrylessMul_xor_left p q g⟩

theorem isMultiple_shiftLeft {g : Nat} (hg : g < 2 ^ 32) (k : Nat) : IsMultiple g (g <<< k) :=
  ⟨2 ^ k, carrylessMul_two_pow k hg⟩

/-- What division takes off is a multiple of the divisor. -/
theorem isMultiple_xor_gf2Mod {g : Nat} (hg : g < 2 ^ 32) (v dg top : Nat) :
    IsMultiple g (v ^^^ gf2Mod v g dg top) := by
  unfold gf2Mod
  generalize (List.range (top + 1 - dg)).reverse = l
  induction l generalizing v with
  | nil => simpa using isMultiple_zero g
  | cons i l ih =>
    have hstep : IsMultiple g (v ^^^ gf2Step g dg v i) := by
      unfold gf2Step
      split
      · rw [Nat.xor_xor_cancel_left]
        exact isMultiple_shiftLeft hg i
      · rw [Nat.xor_self]
        exact isMultiple_zero g
    have h := hstep.xor (ih (gf2Step g dg v i))
    rwa [Nat.xor_assoc, Nat.xor_xor_cancel_left] at h

theorem lt_two_pow_of_testBit_eq_false {v n : Nat} (hv : v < 2 ^ (n + 1)) (hn : v.testBit n = false) : v < 2 ^ n := by
  refine Nat.lt_pow_two_of_testBit v fun i hi => ?_
  rcases Nat.eq_or_lt_of_le hi with rfl | hlt
  · exact hn
  · exact Nat.testBit_lt_two_pow (hv.trans_le (Nat.pow_le_pow_right (by decide) hlt))

/-- The remainder has a degree below the divisor's. -/
theorem gf2Mod_lt {g dg v top : Nat} (hg : g < 2 ^ (dg + 1)) (hlead : g.testBit dg = true) (hdg : dg ≤ top + 1)
    (hv : v < 2 ^ (top + 1)) : gf2Mod v g dg top < 2 ^ dg := by
  unfold gf2Mod
  obtain ⟨n, hn⟩ := Nat.exists_eq_add_of_le' hdg
  rw [hn] at hv
  rw [hn, Nat.add_sub_cancel]
  clear hn
  induction n generalizing v with
  | zero => simpa using hv
  | succ n ih =>
    rw [List.range_succ, List.reverse_append]
    refine ih (v := gf2Step g dg v n) ?_
    rw [Nat.add_right_comm] at hv
    refine lt_two_pow_of_testBit_eq_false ?_ ?_ <;> unfold gf2Step <;> split
    · refine Nat.xor_lt_two_pow hv ?_
      rw [Nat.shiftLeft_eq]
      calc g * 2 ^ n < 2 ^ (dg + 1) * 2 ^ n := Nat.mul_lt_mul_of_pos_right hg (Nat.two_pow_pos n)
        _ = 2 ^ (n + dg + 1) := by ring
    · exact hv
    · next h => simp [Nat.testBit_shiftLeft, h, hlead]
    · next h => simpa using h

/-- The codeword of d: d with its remainder appended (R102, R104). -/
def bchWord (g dg top d : Nat) : Nat := d <<< dg ||| gf2Mod (d <<< dg) g dg top

section
variable {g dg top d : Nat} (hg : g < 2 ^ (dg + 1)) (hlead : g.testBit dg = true) (hdg : dg ≤ top + 1)
  (hd : d <<< dg < 2 ^ (top + 1))
include hg hlead hdg hd

theorem bchWord_eq_xor : bchWord g dg top d = d <<< dg ^^^ gf2Mod (d <<< dg) g dg top := by
  have hr := gf2Mod_lt hg hlead hdg hd
  refine Nat.eq_of_testBit_eq fun j => ?_
  rw [bchWord, Nat.testBit_or, Nat.testBit_xor, Nat.testBit_shiftLeft]
  by_cases hj : dg ≤ j
  · rw [Nat.testBit_lt_two_pow (hr.trans_le (Nat.pow_le_pow_right (by decide) hj)), Bool.or_false, Bool.xor_false]
  · simp [hj]

theorem bchWord_div : bchWord g dg top d / 2 ^ dg = d := by
  have hr := gf2Mod_lt hg hlead hdg hd
  generalize hm : gf2Mod (d <<< dg) g dg top = r at hr
  rw [bchWord, hm, Nat.or_comm, Nat.shiftLeft_eq, or_mul_two_pow d hr, Nat.add_mul_div_right _ _ (Nat.two_pow_pos dg),
    Nat.div_eq_of_lt hr, Nat.zero_add]

theorem bchWord_lt : bchWord g dg top d < 2 ^ (top + 1) :=
  Nat.or_lt_two_pow hd ((gf2Mod_lt hg hlead hdg hd).trans_le (Nat.pow_le_pow_right (by decide) hdg))

theorem isMultiple_bchWord (h32 : g < 2 ^ 32) : IsMultiple g (bchWord g dg top d) := by
  rw [bchWord_eq_xor hg hlead hdg hd]
  exact isMultiple_xor_gf2Mod h32 _ _ _

end

/-! ### The two words -/

/-- The data of the format word: level code and mask (R102). -/
def formatData (lvl : Level) (m : MaskIdx) : Nat := lvl.code <<< 3 ||| m.val

theorem formatData_eq (lvl : Level) (m : MaskIdx) : formatData lvl m = lvl.code * 8 + m.val := by
  rw [formatData, Nat.or_comm, Nat.shiftLeft_eq, or_mul_two_pow (k := 3) lvl.code m.isLt, Nat.add_comm]
  rfl

theorem formatData_shiftLeft_lt (lvl : Level) (m : MaskIdx) : formatData lvl m <<< 10 < 2 ^ (14 + 1) := by
  have hcode : lvl.code ≤ 3 := by cases lvl <;> decide
  rw [formatData_eq, Nat.shiftLeft_eq]
  omega

/-- FMT_WORD unmasked is the codeword of its data (R102). -/
theorem formatWord_unmasked (lvl : Level) (m : MaskIdx) :
    (formatWord lvl m).toNat ^^^ 0x5412 = bchWord 0x537 10 14 (formatData lvl m) := by
  have hlt := bchWord_lt (by decide) (by decide) (by decide) (formatData_shiftLeft_lt lvl m) (g := 0x537)
  have hword : (formatWord lvl m).toNat = bchWord 0x537 10 14 (formatData lvl m) ^^^ 0x5412 :=
    (BitVec.toNat_ofNat _ _).trans (Nat.mod_eq_of_lt (Nat.xor_lt_two_pow hlt (by decide)))
  rw [hword, Nat.xor_xor_cancel_right]

/-- VER_WORD is the codeword of the version (R104). -/
theorem versionWord_toNat {version : Nat} (h7 : 7 ≤ version) (h : version <<< 12 < 2 ^ (17 + 1)) :
    (versionWord version).toNat = bchWord 0x1F25 12 17 version := by
  rw [versionWord, if_pos h7]
  exact (BitVec.toNat_ofNat _ _).trans (Nat.mod_eq_of_lt (bchWord_lt (by decide) (by decide) (by decide) h))

/-- Settles O33: both words are codewords, the remainder of the division appended to the data. -/
theorem formatAndVersionWordsAreCodewords : Obligations.FormatAndVersionWordsAreCodewords := by
  unfold Obligations.FormatAndVersionWordsAreCodewords
  intro s m hphase
  have hformat := formatData_shiftLeft_lt s.sym.level m
  have hversion : s.versionNat <<< 12 < 2 ^ (17 + 1) := by
    have hlt : s.versionNat < 64 := s.sym.version.isLt
    rw [Nat.shiftLeft_eq]
    omega
  refine ⟨_, exec_symApplyMask_of_allowed ((Phase.allowsMask_iff _).mpr hphase) m, ?_, ?_, fun h7 => ?_,
    versionWord_of_lt⟩
  · change ((formatWord s.sym.level m).toNat ^^^ 0x5412) / 2 ^ 10 = s.sym.level.code * 8 + m.val
    rw [formatWord_unmasked, bchWord_div (by decide) (by decide) (by decide) hformat, formatData_eq]
  · change IsMultiple 0x537 ((formatWord s.sym.level m).toNat ^^^ 0x5412)
    rw [formatWord_unmasked]
    exact isMultiple_bchWord (by decide) (by decide) (by decide) hformat (by decide)
  · change (versionWord s.versionNat).toNat / 2 ^ 12 = s.versionNat ∧
      IsMultiple 0x1F25 (versionWord s.versionNat).toNat
    rw [versionWord_toNat h7 hversion]
    exact ⟨bchWord_div (by decide) (by decide) (by decide) hversion,
      isMultiple_bchWord (by decide) (by decide) (by decide) hversion (by decide)⟩

end Sys2Proof.Machine

/-! ## Applying and choosing masks (44_mask.md R114, R116) -/

namespace Sys2Proof.Machine

/-- Applying or choosing a mask leaves everything a mask is built from (R113). -/
theorem State.build_setSymbol_masked (s : State) (m n : MaskIdx) (p : Phase) (r : PenRegs) (g : Grid) :
    (s.setSymbol p (s.maskedRegs m) r { s.grids with out := g }).complete.build n = s.build n := rfl

theorem State.trial_setSymbol_masked (s : State) (m n : MaskIdx) (p : Phase) (r : PenRegs) (g : Grid) :
    (s.setSymbol p (s.maskedRegs m) r { s.grids with out := g }).complete.trial n = s.trial n := rfl

theorem State.chosenMask_setSymbol_masked (s : State) (m : MaskIdx) (p : Phase) (r : PenRegs) (g : Grid) :
    (s.setSymbol p (s.maskedRegs m) r { s.grids with out := g }).complete.chosenMask = s.chosenMask := rfl

/-- Settles O40: a mask is built from parts of the state that masking leaves, and everything masking writes is written
again. -/
theorem masksStartFromModule : Obligations.MasksStartFromModule := by
  unfold Obligations.MasksStartFromModule
  intro s m₁ m₂ hphase
  have hp := (Phase.allowsMask_iff _).mpr hphase
  constructor
  · exact ⟨_, _, exec_symApplyMask_of_allowed hp m₁, exec_symApplyMask_of_allowed rfl m₂,
      exec_symApplyMask_of_allowed hp m₂⟩
  · refine ⟨_, exec_symSelectMask_of_allowed hp, ?_⟩
    rw [exec_symSelectMask_of_allowed rfl]
    simp only [State.chosenMask_setSymbol_masked, State.trial_setSymbol_masked, State.build_setSymbol_masked]
    rfl

/-! ### The chosen mask -/


/-- m is the first of the masks in ms whose total is least. -/
structure FirstLeast (total : MaskIdx → Nat) (ms : List MaskIdx) (m : MaskIdx) : Prop where
  mem : m ∈ ms
  le : ∀ n ∈ ms, total m ≤ total n
  lt : ∀ n ∈ ms, n < m → total m < total n

/-- Going through masks in rising order, the search keeps the first of those seen whose total is least. -/
theorem firstLeast_leastFrom (total : MaskIdx → Nat) {best : MaskIdx} {ms : List MaskIdx}
    (sorted : (best :: ms).Pairwise (· < ·)) : FirstLeast total (best :: ms) (leastFrom total best ms) := by
  induction ms generalizing best with
  | nil =>
    rw [leastFrom]
    refine ⟨List.mem_singleton_self _, List.forall_mem_singleton.mpr le_rfl, List.forall_mem_singleton.mpr ?_⟩
    exact fun hlt => absurd hlt (lt_irrefl _)
  | cons m ms ih =>
    simp only [List.pairwise_cons, List.forall_mem_cons] at sorted
    obtain ⟨⟨hbm, hb⟩, hm, hms⟩ := sorted
    rw [leastFrom]
    split
    · next hlt =>
      obtain ⟨mem, le, lt⟩ := ih (List.pairwise_cons.mpr ⟨hm, hms⟩)
      have hbest := (le m List.mem_cons_self).trans_lt hlt
      exact ⟨List.mem_cons_of_mem _ mem, List.forall_mem_cons.mpr ⟨hbest.le, le⟩,
        List.forall_mem_cons.mpr ⟨fun _ => hbest, lt⟩⟩
    · next hnlt =>
      obtain ⟨mem, le, lt⟩ := ih (List.pairwise_cons.mpr ⟨hb, hms⟩)
      rw [List.forall_mem_cons] at le lt
      have hle := Nat.not_lt.mp hnlt
      refine ⟨?_, List.forall_mem_cons.mpr ⟨le.1, List.forall_mem_cons.mpr ⟨le.1.trans hle, le.2⟩⟩,
        List.forall_mem_cons.mpr ⟨lt.1, List.forall_mem_cons.mpr ⟨fun h => ?_, lt.2⟩⟩⟩
      · exact List.mem_cons.mpr ((List.mem_cons.mp mem).imp_right (List.mem_cons_of_mem _))
      · exact (lt.1 (hbm.trans h)).trans_le hle

theorem firstLeast_bestMask (total : MaskIdx → Nat) : FirstLeast total [0, 1, 2, 3, 4, 5, 6, 7] (bestMask total) :=
  firstLeast_leastFrom total (by decide)

theorem mem_allMasks (m : MaskIdx) : m ∈ ([0, 1, 2, 3, 4, 5, 6, 7] : List MaskIdx) := by revert m; decide

/-- Settles O38: the search over the eight trials ends at the first of least total. -/
theorem symSelectMaskChoosesLeast : Obligations.SymSelectMaskChoosesLeast := by
  unfold Obligations.SymSelectMaskChoosesLeast
  intro s hphase
  obtain ⟨-, le, lt⟩ := firstLeast_bestMask fun m => (s.trial m).total
  refine ⟨_, s.chosenMask, exec_symSelectMask_of_allowed ((Phase.allowsMask_iff _).mpr hphase), rfl, rfl,
    fun m => le m (mem_allMasks m), fun m => lt m (mem_allMasks m), fun m => ?_, rfl, symbolFrame_complete s _ _ _ _⟩
  exact Vector.getElem_ofFn (f := fun m => BitVec.ofNat 32 (s.trial m).total) m.isLt

end Sys2Proof.Machine

/-! ## Penalties (44_mask.md R106 to R112) -/

namespace Sys2Proof.Machine

/-! ### The lines of a grid -/

/-- The columns of a square given by rows (R106). -/
theorem columnsOf_map (n : Nat) (f : Nat → Nat → Bool) (ys : List Nat) :
    columnsOf n (ys.map fun y => (List.range n).map fun x => f x y) =
      (List.range n).map fun x => ys.map fun y => f x y := by
  induction ys with
  | nil => simp [columnsOf]
  | cons y ys ih =>
    rw [columnsOf] at ih
    rw [List.map_cons, columnsOf, List.foldr_cons, ih, List.zipWith_map, List.zipWith_self]
    rfl

theorem innerRows_eq (g : Grid) (side : Nat) : g.innerRows side = (List.range side).map (rowLine g side) := rfl

theorem columnsOf_innerRows (g : Grid) (side : Nat) :
    columnsOf side (g.innerRows side) = (List.range side).map (columnLine g side) :=
  columnsOf_map side g.readInner (List.range side)

/-- A score summed over the machine's rows and columns is summed over the lines of R106. -/
theorem sum_map_lines (g : Grid) (side : Nat) (f : List Bool → Nat) :
    ((g.innerRows side ++ columnsOf side (g.innerRows side)).map f).sum = sumOverLines g side f := by
  rw [columnsOf_innerRows, innerRows_eq, List.map_append, List.sum_append, List.map_map, List.map_map]
  rfl

theorem scoreGrid_n1 (g : Grid) (side : Nat) : (scoreGrid g side).n1 = sumOverLines g side lineN1 :=
  sum_map_lines g side _

theorem scoreGrid_n3 (g : Grid) (side : Nat) : (scoreGrid g side).n3 = sumOverLines g side lineN3 :=
  sum_map_lines g side _

theorem scoreGrid_n2 (g : Grid) (side : Nat) : (scoreGrid g side).n2 = rowsN2 (g.innerRows side) := rfl

theorem scoreGrid_dark (g : Grid) (side : Nat) : (scoreGrid g side).dark = g.countInner side true := rfl

theorem scoreGrid_n4 (g : Grid) (side : Nat) :
    (scoreGrid g side).n4 = scoreN4 (g.countInner side true) (side * side) := rfl

theorem rowLine_length (g : Grid) (side y : Nat) : (rowLine g side y).length = side := by simp [rowLine]

theorem columnLine_length (g : Grid) (side x : Nat) : (columnLine g side x).length = side := by simp [columnLine]

/-! ### Runs (R107) -/

theorem sum_map_range (f : Nat → Nat) (n : Nat) : ((List.range n).map f).sum = ∑ i ∈ Finset.range n, f i := rfl

/-- What the runs that start at j add to N1 (R107). -/
def runPointsAt (xs : List Bool) (j : Nat) : Nat :=
  ((List.range (xs.length + 1)).map fun k => if 5 ≤ k ∧ MaximalRun xs j k then 3 + (k - 5) else 0).sum

theorem runPoints_eq (xs : List Bool) : runPoints xs = ∑ j ∈ Finset.range xs.length, runPointsAt xs j := rfl

/-- At most one maximal run starts at j. -/
theorem MaximalRun.unique {xs : List Bool} {j k l : Nat} (hk : MaximalRun xs j k) (hl : MaximalRun xs j l) : k = l := by
  obtain ⟨-, -, samek, -, endk⟩ := hk
  obtain ⟨-, -, samel, -, endl⟩ := hl
  rcases Nat.lt_trichotomy k l with h | h | h
  · exact absurd (samel k h) endk
  · exact h
  · exact absurd (samek l h) endl

theorem runPointsAt_of_run {xs : List Bool} {j k : Nat} (h : MaximalRun xs j k) : runPointsAt xs j = runScore k := by
  have hk : k ∈ Finset.range (xs.length + 1) := by
    obtain ⟨-, hlen, -⟩ := h
    rw [Finset.mem_range]
    omega
  rw [runPointsAt, sum_map_range, Finset.sum_eq_single_of_mem k hk, runScore]
  · exact if_congr (and_iff_left h) rfl rfl
  · exact fun l _ hne => if_neg fun hl => hne (hl.2.unique h)

theorem runPointsAt_of_no_run {xs : List Bool} {j : Nat} (h : ∀ k, ¬ MaximalRun xs j k) : runPointsAt xs j = 0 := by
  rw [runPointsAt, sum_map_range]
  exact Finset.sum_eq_zero fun k _ => if_neg fun hk => h k hk.2

/-- No maximal run starts inside a run. -/
theorem not_maximalRun_inside {c : Bool} {k j : Nat} (rest : List Bool) (h0 : 0 < j) (hj : j < k) (l : Nat) :
    ¬ MaximalRun (List.replicate k c ++ rest) j l := by
  rintro ⟨-, -, -, start | start, -⟩
  · omega
  · exact start (by simp [List.getElem?_append_left, hj, Nat.lt_of_le_of_lt (Nat.sub_le j 1) hj])

section
variable {c : Bool} {k : Nat} {rest : List Bool} (hk : 1 ≤ k) (hrest : rest[0]? ≠ some c)
include hk hrest

/-- The modules of one colour at the start of a line are a maximal run. -/
theorem maximalRun_replicate : MaximalRun (List.replicate k c ++ rest) 0 k := by
  have hcol : ∀ i < k, (List.replicate k c ++ rest)[i]? = some c := fun i hi => by
    simp [List.getElem?_append_left, hi]
  refine ⟨hk, by simp, fun i hi => ?_, .inl rfl, ?_⟩
  · rw [Nat.zero_add, hcol i hi, hcol 0 hk]
  · rw [hcol 0 hk, Nat.zero_add, List.getElem?_append_right (by simp)]
    simpa using hrest

/-- The runs after the first are those of the rest of the line. -/
theorem maximalRun_append_iff {j l : Nat} :
    MaximalRun (List.replicate k c ++ rest) (k + j) l ↔ MaximalRun rest j l := by
  have shift : ∀ i, (List.replicate k c ++ rest)[k + i]? = rest[i]? := fun i => by
    simp [List.getElem?_append_right]
  have start : (k + j = 0 ∨ (List.replicate k c ++ rest)[k + j - 1]? ≠ rest[j]?) ↔
      (j = 0 ∨ rest[j - 1]? ≠ rest[j]?) := by
    rcases Nat.eq_zero_or_pos j with rfl | hj
    · have hlast : (List.replicate k c ++ rest)[k + 0 - 1]? = some c := by
        simp [List.getElem?_append_left, Nat.sub_lt hk]
      rw [hlast]
      exact iff_of_true (.inr hrest.symm) (.inl rfl)
    · rw [Nat.add_sub_assoc hj, shift]
      exact or_congr_left (by omega)
  simp only [MaximalRun, start, List.length_append, List.length_replicate, Nat.add_assoc, shift,
    Nat.add_le_add_iff_left]

/-- A line's points are those of its first run and those of the rest. -/
theorem runPoints_replicate_append :
    runPoints (List.replicate k c ++ rest) = runScore k + runPoints rest := by
  obtain ⟨n, rfl⟩ := Nat.exists_eq_add_of_le' hk
  rw [runPoints_eq, runPoints_eq, List.length_append, List.length_replicate, Finset.sum_range_add]
  congr 1
  · rw [Finset.sum_range_succ', runPointsAt_of_run (maximalRun_replicate hk hrest), Finset.sum_eq_zero, Nat.zero_add]
    exact fun j hj => runPointsAt_of_no_run
      (not_maximalRun_inside rest (Nat.succ_pos j) (Nat.succ_lt_succ (Finset.mem_range.mp hj)))
  · refine Finset.sum_congr rfl fun j _ => ?_
    by_cases h : ∃ l, MaximalRun rest j l
    · obtain ⟨l, hl⟩ := h
      rw [runPointsAt_of_run hl, runPointsAt_of_run ((maximalRun_append_iff hk hrest).mpr hl)]
    · rw [not_exists] at h
      rw [runPointsAt_of_no_run h, runPointsAt_of_no_run fun l hl => h l ((maximalRun_append_iff hk hrest).mp hl)]

end

/-- The run reader's scores, a run of k modules of colour c being read, are the points of the line from that run on. -/
theorem sum_runsFrom {c : Bool} {k : Nat} (hk : 1 ≤ k) (xs : List Bool) :
    ((runsFrom c k xs).map runScore).sum = runPoints (List.replicate k c ++ xs) := by
  induction xs generalizing c k with
  | nil => rw [runPoints_replicate_append hk (by simp)]; rfl
  | cons b xs ih =>
    rw [runsFrom]
    split
    · next h =>
      rw [ih (Nat.le_add_left 1 k), h, List.replicate_succ', List.append_assoc]
      rfl
    · next h =>
      rw [List.map_cons, List.sum_cons, ih le_rfl, runPoints_replicate_append hk (by simpa using h)]
      rfl

theorem lineN1_eq_runPoints (xs : List Bool) : lineN1 xs = runPoints xs := by
  cases xs with
  | nil => rfl
  | cons b xs => exact sum_runsFrom le_rfl xs

/-- Settles O34: the run reader counts each maximal run once, at its start. -/
theorem scoreCountsRuns : Obligations.ScoreCountsRuns := by
  unfold Obligations.ScoreCountsRuns
  intro s hphase
  refine ⟨_, exec_symScore_of_allowed ((Phase.allowsScore_iff _).mpr hphase), ?_⟩
  rw [← funext lineN1_eq_runPoints, ← scoreGrid_n1]
  rfl


/-! ### Patterns (R109) -/

/-- Eleven modules are at the front of a line exactly when the line reads them from index 0. -/
theorem take_eq_iff_patternAt {xs pat : List Bool} (hpat : pat.length = 11) :
    xs.take 11 = pat ↔ 0 + 11 ≤ xs.length ∧ PatternAt xs pat 0 := by
  constructor
  · rintro rfl
    rw [List.length_take] at hpat
    refine ⟨by omega, fun i hi => ?_⟩
    rw [Nat.zero_add, List.getElem?_take_of_lt hi]
  · rintro ⟨hlen, hat⟩
    refine List.ext_getElem? fun i => ?_
    by_cases hi : i < 11
    · rw [List.getElem?_take_of_lt hi, ← hat i hi, Nat.zero_add]
    · rw [List.getElem?_eq_none (by rw [List.length_take]; omega), List.getElem?_eq_none (by omega)]

/-- Dropping the first module moves a pattern's start index down by one. -/
theorem patternAt_cons_succ (b : Bool) (xs pat : List Bool) (j : Nat) :
    PatternAt (b :: xs) pat (j + 1) ↔ PatternAt xs pat j := by
  simp only [PatternAt, Nat.add_right_comm j 1, List.getElem?_cons_succ]

theorem patternAtFront_iff (xs : List Bool) : (xs.take 11 = patternA ∨ xs.take 11 = patternB) ↔
    0 + 11 ≤ xs.length ∧ (PatternAt xs patternA 0 ∨ PatternAt xs patternB 0) := by
  rw [take_eq_iff_patternAt rfl, take_eq_iff_patternAt rfl, ← and_or_left]

/-- Index 0 of a line is tried, and the other start indices are those of the line without its first module. -/
theorem lineN3_eq_patternPoints (xs : List Bool) : lineN3 xs = patternPoints xs := by
  induction xs with
  | nil => rfl
  | cons b xs ih =>
    rw [lineN3, ih, patternPoints, patternPoints, List.length_cons, List.range_succ_eq_map, List.map_cons,
      List.sum_cons, List.map_map]
    refine congrArg₂ (· + ·) (if_congr (patternAtFront_iff (b :: xs)) rfl rfl)
      (congrArg List.sum (List.map_congr_left fun j _ => ?_))
    simp only [Function.comp_apply, Nat.succ_eq_add_one, patternAt_cons_succ, Nat.add_right_comm j 1,
      Nat.add_le_add_iff_right]

/-- Settles O36: every start index of every line is tried once. -/
theorem scoreCountsPatterns : Obligations.ScoreCountsPatterns := by
  unfold Obligations.ScoreCountsPatterns
  intro s hphase
  refine ⟨_, exec_symScore_of_allowed ((Phase.allowsScore_iff _).mpr hphase), ?_⟩
  rw [← funext lineN3_eq_patternPoints, ← scoreGrid_n3]
  rfl

/-! ### Blocks and balance (R108, R110) -/

/-- The blocks of two adjacent rows, given by the modules from column a on. -/
theorem rowPairN2_map (f g : Nat → Bool) (a n : Nat) :
    rowPairN2 ((List.range' a (n + 1)).map f) ((List.range' a (n + 1)).map g) =
      ((List.range' a n).map fun x =>
        if f x = f (x + 1) ∧ f x = g x ∧ f x = g (x + 1) then 3 else 0).sum := by
  induction n generalizing a with
  | zero => rfl
  | succ n ih =>
    have h := ih (a + 1)
    rw [List.range'_succ, List.map_cons, List.map_cons] at h
    rw [List.range'_succ, List.range'_succ, List.map_cons, List.map_cons, List.map_cons, List.map_cons, rowPairN2, h,
      List.range'_succ, List.map_cons, List.sum_cons]

/-- The blocks of a list of rows are those of each row with the next. -/
theorem rowsN2_map (row : Nat → List Bool) (a n : Nat) :
    rowsN2 ((List.range' a (n + 1)).map row) =
      ((List.range' a n).map fun y => rowPairN2 (row y) (row (y + 1))).sum := by
  induction n generalizing a with
  | zero => rfl
  | succ n ih =>
    have h := ih (a + 1)
    rw [List.range'_succ, List.map_cons] at h
    rw [List.range'_succ, List.range'_succ, List.map_cons, List.map_cons, rowsN2, h, List.range'_succ, List.map_cons,
      List.sum_cons]

theorem rowsN2_innerRows (g : Grid) (n : Nat) : rowsN2 (g.innerRows (n + 1)) = blockPoints g (n + 1) := by
  rw [innerRows_eq, List.range_eq_range', rowsN2_map, blockPoints, Nat.add_sub_cancel, List.range_eq_range']
  refine congrArg List.sum (List.map_congr_left fun y _ => ?_)
  rw [rowLine, rowLine, List.range_eq_range', rowPairN2_map]

theorem count_true_eq_sum {α : Type} (f : α → Bool) (l : List α) :
    (l.map f).count true = (l.map fun a => (f a).toNat).sum := by
  induction l with
  | nil => rfl
  | cons a l ih => cases h : f a <;> simp [h, ih, Nat.add_comm]

theorem countInner_true_eq_darkModules (g : Grid) (side : Nat) : g.countInner side true = darkModules g side := by
  rw [Grid.countInner, innerRows_eq, List.map_map]
  exact congrArg List.sum (List.map_congr_left fun y _ => count_true_eq_sum (g.readInner · y) _)

theorem scoreN4_eq_balancePoints (g : Grid) (side : Nat) :
    scoreN4 (darkModules g side) (side * side) = balancePoints g side := by
  rw [scoreN4, absDiff_eq_natAbs, balancePoints]
  push_cast
  rfl

/-- Settles O35: rows are paired with the next, columns likewise, and dark modules are counted row by row. -/
theorem scoreCountsBlocksAndBalance : Obligations.ScoreCountsBlocksAndBalance := by
  unfold Obligations.ScoreCountsBlocksAndBalance
  intro s hphase
  refine ⟨_, exec_symScore_of_allowed ((Phase.allowsScore_iff _).mpr hphase), ?n2, ?n4, ?dark⟩
  case n2 =>
    rw [State.side_eq_succ, ← rowsN2_innerRows, ← State.side_eq_succ, ← scoreGrid_n2]
    rfl
  case n4 =>
    rw [← scoreN4_eq_balancePoints, ← countInner_true_eq_darkModules, ← scoreGrid_n4]
    rfl
  case dark =>
    rw [← countInner_true_eq_darkModules, ← scoreGrid_dark]
    rfl

/-! ### Bounds (R111, R112) -/

theorem runScore_le (k : Nat) : runScore k ≤ k := by unfold runScore; split <;> omega

/-- The runs of a line add at most its length to N1. -/
theorem sum_runsFrom_le (c : Bool) (k : Nat) (xs : List Bool) :
    ((runsFrom c k xs).map runScore).sum ≤ k + xs.length := by
  induction xs generalizing c k with
  | nil => exact runScore_le k
  | cons b xs ih =>
    rw [runsFrom, List.length_cons]
    split
    · have := ih c (k + 1)
      omega
    · rw [List.map_cons, List.sum_cons]
      have := runScore_le k
      have := ih b 1
      omega

theorem lineN1_le (xs : List Bool) : lineN1 xs ≤ xs.length := by
  cases xs with
  | nil => exact Nat.zero_le _
  | cons b xs =>
    rw [List.length_cons, Nat.add_comm]
    exact sum_runsFrom_le b 1 xs

/-- A pattern needs eleven modules, so the last ten start indices add nothing to N3. -/
theorem lineN3_le (xs : List Bool) : lineN3 xs ≤ 40 * (xs.length - 10) := by
  induction xs with
  | nil => exact Nat.zero_le _
  | cons b xs ih =>
    rw [lineN3, List.length_cons]
    split
    · next h =>
      have hlen := ((patternAtFront_iff _).mp h).1
      rw [List.length_cons] at hlen
      omega
    · omega

theorem sum_map_range_le {f : Nat → Nat} (n : Nat) {B : Nat} (h : ∀ i, f i ≤ B) :
    ((List.range n).map f).sum ≤ n * B := by
  simpa using List.sum_le_card_nsmul ((List.range n).map f) B (by simpa using fun i _ => h i)

/-- A sum over the lines is at most their number times a bound of one. -/
theorem sumOverLines_le (g : Grid) {side B : Nat} {f : List Bool → Nat}
    (h : ∀ xs, xs.length = side → f xs ≤ B) : sumOverLines g side f ≤ 2 * (side * B) := by
  rw [Nat.two_mul]
  exact Nat.add_le_add (sum_map_range_le side fun y => h _ (rowLine_length g side y))
    (sum_map_range_le side fun x => h _ (columnLine_length g side x))

theorem blockPoints_le (g : Grid) (side : Nat) : blockPoints g side ≤ (side - 1) * ((side - 1) * 3) := by
  refine sum_map_range_le _ fun y => sum_map_range_le _ fun x => ?_
  split <;> decide

/-- The balance is off by at most half of the modules (R110). -/
theorem scoreN4_le {dark total : Nat} (h : dark ≤ total) : scoreN4 dark total ≤ 100 := by
  have hdiff : absDiff (100 * dark) (50 * total) ≤ 5 * total * 10 := by
    unfold absDiff
    omega
  have := Nat.div_le_of_le_mul hdiff
  unfold scoreN4
  omega

/-- The penalty of a symbol fits its register (R112). -/
theorem scoreGrid_total_lt (g : Grid) {side : Nat} (h1 : 1 ≤ side) (h : side ≤ 177) :
    (scoreGrid g side).total < 2600000 := by
  have n1 : (scoreGrid g side).n1 ≤ 2 * (side * 177) := by
    rw [scoreGrid_n1]
    exact sumOverLines_le g fun xs hxs => (lineN1_le xs).trans (by omega)
  have n2 : (scoreGrid g side).n2 ≤ 176 * (176 * 3) := by
    obtain ⟨n, rfl⟩ := Nat.exists_eq_add_of_le' h1
    have hn : n ≤ 176 := by omega
    rw [scoreGrid_n2, rowsN2_innerRows]
    exact (blockPoints_le g (n + 1)).trans (Nat.mul_le_mul hn (Nat.mul_le_mul_right 3 hn))
  have n3 : (scoreGrid g side).n3 ≤ 2 * (side * (40 * 167)) := by
    rw [scoreGrid_n3]
    exact sumOverLines_le g fun xs hxs => (lineN3_le xs).trans (by omega)
  have n4 : (scoreGrid g side).n4 ≤ 100 := by
    rw [scoreGrid_n4]
    exact scoreN4_le (g.countInner_le side true)
  unfold Score.total
  omega

/-- A penalty that fits the register is written without wrap-around, and so are its parts. -/
theorem setScore_total (p : PenRegs) {c : Score} (h : c.total < 2 ^ 32) :
    (p.setScore c).total.toNat = c.total ∧
      (p.setScore c).total.toNat = (p.setScore c).n1.toNat + (p.setScore c).n2.toNat + (p.setScore c).n3.toNat +
        (p.setScore c).n4.toNat := by
  simp only [PenRegs.setScore, BitVec.toNat_ofNat]
  unfold Score.total at *
  omega

/-- Settles O37: the bounds of the four parts add up to less than 2 600 000. -/
theorem symScoreTotalDoesNotWrap : Obligations.SymScoreTotalDoesNotWrap := by
  unfold Obligations.SymScoreTotalDoesNotWrap
  intro s hphase h1 h40
  have hs : s.side ≤ 177 := innerSide_le h40
  have hlt := scoreGrid_total_lt s.grids.out (by rw [State.side_eq_succ]; omega) hs
  obtain ⟨htotal, hsum⟩ := setScore_total s.pen (hlt.trans (by decide))
  exact ⟨_, exec_symScore_of_allowed ((Phase.allowsScore_iff _).mpr hphase), hsum, htotal.trans_lt hlt, rfl, rfl, rfl,
    rfl, symbolFrame_complete s _ _ _ _⟩

end Sys2Proof.Machine

/-! ## The ends of a command and the error record (60_exceptions.md R133 to R141) -/

namespace Sys2Proof.Machine

/-! ### Every command ends (R133, R135, R136) -/

/-- A next state that is a `done` end of `s` or the error completion of `s` with a code a command may raise (R133). -/
def Ends (s : State) (o : Host.Outcome State Fault Refusal) : Prop :=
  ∃ t, o = .next t ∧ (DoneEnd s t ∨ ∃ code, code ≠ .none ∧ code ≠ .illegal ∧ t = errorState s code)

theorem ends_finish (s : State) : Ends s s.finish := ⟨_, rfl, .inl ⟨rfl, rfl, rfl, rfl, rfl, rfl, rfl⟩⟩

theorem ends_finish_setBuf (s : State) (sd : BufIdx) (b : Bits) : Ends s (s.setBuf sd b).finish :=
  ⟨_, rfl, .inl (bufferFrame_setBuf s sd b).1⟩

theorem ends_finish_setResult (s : State) (v : Word) : Ends s (s.setResult v).finish :=
  ⟨_, rfl, .inl (resultFrame_setResult s v).1⟩

theorem ends_finish_setSymbol (s : State) (p : Phase) (y : SymRegs) (n : PenRegs) (g : Grids) :
    Ends s (s.setSymbol p y n g).finish :=
  ⟨_, rfl, .inl (symbolFrame_complete s p y n g).1⟩

theorem ends_fail (s : State) {code : ErrCode} (hc : code ≠ .none ∧ code ≠ .illegal) : Ends s (s.fail code) :=
  ⟨_, rfl, .inr ⟨code, hc.1, hc.2, rfl⟩⟩

/-- A command that makes a check ends when what follows the check does. -/
theorem ends_check {s : State} {c : Prop} [Decidable c] {code : ErrCode} {o : Host.Outcome State Fault Refusal}
    (hc : code ≠ .none ∧ code ≠ .illegal) (ho : Ends s o) : Ends s (if c then s.fail code else o) := by
  split
  · exact ends_fail s hc
  · exact ho

theorem exec_ends (i : Instr) (s : State) : Ends s (exec i s) := by
  cases i with
  | nop => exact ends_finish s
  | bsClear sd => exact ends_finish_setBuf s sd _
  | bsAppendBits sd n => exact ends_check (by decide) (ends_check (by decide) (ends_finish_setBuf s sd _))
  | bsAppendBools sd b => exact ends_check (by decide) (ends_finish_setBuf s sd _)
  | bsAppend sd ss => exact ends_check (by decide) (ends_finish_setBuf s sd _)
  | bsSubstr sd ss =>
    simp only [exec, execBsSubstr]
    split
    · exact ends_finish_setBuf s sd _
    · exact ends_fail s (by decide)
  | bsByteAt ss => exact ends_check (by decide) (ends_finish_setResult s _)
  | gfMul =>
    simp only [exec, execGfMul]
    split
    · exact ends_finish_setResult s _
    · exact ends_fail s (by decide)
  | gfExp => exact ends_check (by decide) (ends_finish_setResult s _)
  | gfLog =>
    simp only [exec, execGfLog]
    split
    · exact ends_check (by decide) (ends_finish_setResult s _)
    · exact ends_fail s (by decide)
  | rsGenpoly sd => exact ends_check (by decide) (ends_check (by decide) (ends_finish_setBuf s sd _))
  | rsEncode sd ss =>
    exact ends_check (by decide) (ends_check (by decide) (ends_check (by decide) (ends_finish_setBuf s sd _)))
  | symInit =>
    simp only [exec, execSymInit]
    split
    · exact ends_finish_setSymbol s _ _ _ _
    · exact ends_fail s (by decide)
  | symFunction => exact ends_check (by decide) (ends_finish_setSymbol s _ _ _ _)
  | symPlace ss => exact ends_check (by decide) (ends_check (by decide) (ends_finish_setSymbol s _ _ _ _))
  | symApplyMask m => exact ends_check (by decide) (ends_finish_setSymbol s _ _ _ _)
  | symScore => exact ends_check (by decide) (ends_finish_setSymbol s _ _ _ _)
  | symSelectMask => exact ends_check (by decide) (ends_finish_setSymbol s _ _ _ _)

/-- Settles O6: every arm is a row of checks, each failing with a listed code, before a `done` end. -/
theorem everyCommandEnds : Obligations.EveryCommandEnds := by
  unfold Obligations.EveryCommandEnds
  exact exec_ends

/-! ### BUSY falls again (R141, R154) -/

/-- An engine step leaves the engine idle, whatever word is latched. -/
theorem engineStep_ends (s : State) : ∃ t, engineStep s = .next t ∧ t.busy = false := by
  rcases engineStep_cases s with ⟨i, -, hstep⟩ | ⟨_, -, hstep⟩
  · obtain ⟨t, ht, hend⟩ := exec_ends i s
    refine ⟨t, hstep.trans ht, ?_⟩
    rcases hend with hdone | ⟨code, -, -, rfl⟩
    · exact hdone.busy
    · rfl
  · exact ⟨_, hstep, rfl⟩

/-- A defined operation is handled (20_memory.md R46). -/
theorem busOp_defined {op : BusOp} (s : State) (h : op.defined = true) : ∃ t, busOp op s = .next t := by
  cases op with
  | read off width =>
    obtain ⟨rfl, ha⟩ : width = .w32 ∧ off.toNat % 4 = 0 := by simpa [BusOp.defined] using h
    exact ⟨s.busRead off, by simp [busOp, ha]⟩
  | write off width v =>
    obtain ⟨rfl, ha⟩ : width = .w32 ∧ off.toNat % 4 = 0 := by simpa [BusOp.defined] using h
    exact ⟨s.busWrite off v, by simp [busOp, ha]⟩
  | writeLast off =>
    have ha : off.toNat % 4 = 0 := by simpa [BusOp.defined] using h
    exact ⟨s.busWrite off s.env.lastRead, by simp [busOp, ha]⟩
  | wait =>
    cases hb : s.busy with
    | true => exact ⟨_, if_pos hb⟩
    | false => exact ⟨_, if_neg (by simp [hb])⟩
  | hwReset => exact ⟨s.resetBlock, rfl⟩

/-- The command in flight stays in flight, no engine step is put off, and no operation but a staying `wait` is added to
those still to arrive. -/
structure StillRunning (s t : State) : Prop where
  busy : t.busy = true
  hold : t.env.hold = s.env.hold
  inbox : ∀ op ∈ t.env.inbox, op = .wait ∨ op ∈ s.env.inbox

theorem StillRunning.of_eq {s t : State} (hb : s.busy = true) (hbusy : t.busy = s.busy) (henv : t.env = s.env) :
    StillRunning s t :=
  ⟨hbusy.trans hb, congrArg Env.hold henv, fun _ hop => .inr (henv ▸ hop)⟩

theorem StillRunning.busRead {s : State} (hb : s.busy = true) (off : BitVec 16) : StillRunning s (s.busRead off) := by
  obtain ⟨v, n, e⟩ := State.busRead_env s off
  rw [e]
  exact ⟨hb, rfl, fun _ hop => .inr hop⟩

/-- A write while a command runs resets the block or leaves the command running: an issue is dropped (R137). -/
theorem busWrite_running {s : State} (hb : s.busy = true) (off : BitVec 16) (v : Word) :
    s.busWrite off v = s.resetBlock ∨ StillRunning s (s.busWrite off v) := by
  rcases State.busWrite_cases s off v with e | e | e | e | ⟨j, e⟩ | e
  · exact .inl e
  · exact .inr (e ▸ .of_eq hb rfl rfl)
  · exact .inr (e ▸ .of_eq hb rfl rfl)
  · rcases State.issue_cases s v with ⟨hidle, -, -⟩ | ⟨-, hdrop⟩
    · rw [hb] at hidle
      cases hidle
    · exact .inr (e ▸ hdrop ▸ .of_eq hb rfl rfl)
  · exact .inr (e ▸ .of_eq hb (by simp) (by simp))
  · exact .inr (e.symm ▸ .of_eq hb rfl rfl)

/-- What arrives while a command runs abandons it by a reset or leaves it running (R141). -/
theorem busOp_running {op : BusOp} {s t : State} (hb : s.busy = true) (h : busOp op s = .next t) :
    t.busy = false ∨ StillRunning s t := by
  rcases busOp_cases h with ⟨off, rfl⟩ | ⟨off, v, rfl⟩ | ⟨-, rfl⟩ | rfl
  · exact .inr (.busRead hb off)
  · rcases busWrite_running hb off v with e | hr
    · exact .inl (e ▸ rfl)
    · exact .inr hr
  · obtain ⟨busy, hold, inbox⟩ := StillRunning.busRead hb statusOffset
    refine .inr ⟨busy, hold, fun op hop => ?_⟩
    rcases List.mem_cons.mp hop with rfl | hop
    · exact .inl rfl
    · exact inbox op hop
  · exact .inl rfl

theorem core_run_succ {M : Host.Core} {s t : M.State} (h : M.step s = .next t) (k : Nat) :
    M.run (k + 1) s = M.run k t := by
  rw [Host.Core.run, h]

/-- BUSY is 0 again after at most `n` steps. -/
def IdleWithin (n : Nat) (s : State) : Prop :=
  ∃ k t, k ≤ n ∧ Host.Core.run Sys2Proof.core k s = .next t ∧ t.busy = false

theorem idleWithin_of_idle {s : State} (hb : s.busy = false) (n : Nat) : IdleWithin n s :=
  ⟨0, s, Nat.zero_le n, rfl, hb⟩

theorem IdleWithin.of_step {n : Nat} {s t : State} (h : step s = .next t) (ht : IdleWithin n t) :
    IdleWithin (n + 1) s := by
  obtain ⟨k, u, hk, hrun, hu⟩ := ht
  exact ⟨k + 1, u, Nat.succ_le_succ hk, (core_run_succ (M := Sys2Proof.core) h k).trans hrun, hu⟩

/-- In the engine's turn one step is enough. -/
theorem idleWithin_of_engineTurn {s : State} (hb : s.busy = true) (hturn : s.env.hold = 0 ∨ s.env.inbox = [])
    (n : Nat) : IdleWithin (n + 1) s := by
  obtain ⟨t, ht, hidle⟩ := engineStep_ends s
  exact .of_step ((step_engineTurn hb hturn).trans ht) (idleWithin_of_idle hidle n)

/-- By induction on the host steps that come before the engine step: each is used up by one arrival. -/
theorem idleWithin_hold (n : Nat) (s : State) (hn : s.env.hold = n) (hb : s.busy = true)
    (hdef : ∀ op ∈ s.env.inbox, op.defined = true) : IdleWithin (n + 1) s := by
  induction n generalizing s with
  | zero => exact idleWithin_of_engineTurn hb (.inl hn) 0
  | succ n ih =>
    cases hin : s.env.inbox with
    | nil => exact idleWithin_of_engineTurn hb (.inr hin) (n + 1)
    | cons op rest =>
      have hturn : HostTurn s op rest := ⟨.inr (by omega), hin⟩
      obtain ⟨t, ht⟩ := busOp_defined s.takeOp (hdef op (by simp [hin]))
      refine .of_step ((step_hostTurn hturn).trans ht) ?_
      rcases busOp_running (s := s.takeOp) hb ht with hidle | ⟨busy, hold, inbox⟩
      · exact idleWithin_of_idle hidle (n + 1)
      · refine ih t (by simp [hold, hn]) busy fun op' hop' => ?_
        rcases inbox op' hop' with rfl | hmem
        · rfl
        · exact hdef op' (List.mem_of_mem_tail hmem)

/-- Settles O10: each host step before the engine step uses up one of `hold`, and the engine step ends the command. -/
theorem acceptedCommandEnds : Obligations.AcceptedCommandEnds := by
  unfold Obligations.AcceptedCommandEnds
  exact fun s hb hdef => idleWithin_hold s.env.hold s rfl hb hdef

/-! ### The interrupt level (R138, R140) -/

theorem IntEn.word_flags (e : IntEn) :
    e.word.getLsbD 1 = e.done ∧ e.word.getLsbD 2 = e.err ∧ e.word.getLsbD 3 = e.drop := by
  simp only [IntEn.word, BitVec.getLsbD_or, flagBit_getLsbD]
  simp

/-- The level is 1 exactly while an enabled STATUS bit is 1 (R140). -/
theorem State.irq_iff (s : State) : s.irq = true ↔
    ∃ j ∈ [1, 2, 3], s.statusWord.getLsbD j = true ∧ s.intEn.word.getLsbD j = true := by
  obtain ⟨-, done, err, drop⟩ := s.statusWord_flags
  obtain ⟨enDone, enErr, enDrop⟩ := s.intEn.word_flags
  simp only [State.irq, Bool.or_eq_true, Bool.and_eq_true, or_assoc, List.mem_cons, List.not_mem_nil, or_false,
    exists_eq_or_imp, exists_eq_left, done, err, drop, enDone, enErr, enDrop]

/-- A STATUS write of 1 to all three flags lowers the level (R138). -/
theorem State.irq_clearStatus (s : State) : (s.clearStatus 0x0000000E).irq = false := by
  simp [State.irq]

/-- An INT_EN write of 0 lowers the level. -/
theorem State.irq_setIntEn_zero (s : State) : (s.setIntEn 0).irq = false := by
  simp [State.irq, IntEn.ofWord]

/-- Settles O51: the level is read off the flag bits, and the two writes clear one side of each of its three terms. -/
theorem interruptIsALevel : Obligations.InterruptIsALevel := by
  unfold Obligations.InterruptIsALevel
  refine ⟨State.irq_iff, fun s rest h => ?clear, fun s rest h => ?disable⟩
  case clear => exact ⟨_, step_write h rfl, State.irq_clearStatus _⟩
  case disable => exact ⟨_, step_write h rfl, State.irq_setIntEn_zero _, rfl, rfl, rfl⟩

/-! ### The error record (R136, R139) -/

/-- ERRCODE and ERRCMD as before. -/
abbrev ErrorRecordKept (s t : State) : Prop := t.errCode = s.errCode ∧ t.errCmd = s.errCmd

theorem busRead_errorRecord (s : State) (off : BitVec 16) : ErrorRecordKept s (s.busRead off) := by
  obtain ⟨v, n, e⟩ := State.busRead_env s off
  rw [e]
  exact ⟨rfl, rfl⟩

/-- No write of the host but a reset reaches the error record (20_memory.md R51). -/
theorem busWrite_errorRecord (s : State) (off : BitVec 16) (v : Word) :
    s.busWrite off v = s.resetBlock ∨ ErrorRecordKept s (s.busWrite off v) := by
  rcases State.busWrite_cases s off v with e | e | e | e | ⟨j, e⟩ | e
  · exact .inl e
  · exact .inr (e ▸ ⟨rfl, rfl⟩)
  · exact .inr (e ▸ ⟨rfl, rfl⟩)
  · rcases State.issue_cases s v with ⟨-, -, e'⟩ | ⟨-, e'⟩ <;> exact .inr (e ▸ e' ▸ ⟨rfl, rfl⟩)
  · exact .inr (e ▸ ⟨by simp, by simp⟩)
  · exact .inr (e.symm ▸ ⟨rfl, rfl⟩)

theorem busOp_errorRecord {op : BusOp} {s t : State} (h : busOp op s = .next t) :
    t = s.resetBlock ∨ ErrorRecordKept s t := by
  rcases busOp_cases h with ⟨off, rfl⟩ | ⟨off, v, rfl⟩ | ⟨-, rfl⟩ | rfl
  · exact .inr (busRead_errorRecord s off)
  · exact busWrite_errorRecord s off v
  · exact .inr (busRead_errorRecord s statusOffset)
  · exact .inl rfl

/-- With an error recorded no command is in flight (R137). -/
theorem EngineOK.idle_of_err {s : State} (hs : EngineOK s) (he : s.err = true) : s.busy = false := by
  cases hb : s.busy with
  | false => rfl
  | true =>
    rw [EngineOK, if_pos hb, he] at hs
    cases hs.1

/-- Settles O59: with ERR = 1 the engine is idle, and of the host's operations only a reset, which clears ERR, reaches
the error record. -/
theorem errorRecordIsKept : Obligations.ErrorRecordIsKept := by
  unfold Obligations.ErrorRecordIsKept
  intro s t hs he h ht
  rcases step_cases h with ⟨-, hb, -⟩ | ⟨-, -, rfl⟩ | ⟨-, op, rest, -, ho⟩
  · rw [hs.idle_of_err he] at hb
    cases hb
  · exact ⟨rfl, rfl⟩
  · rcases busOp_errorRecord ho with rfl | hk
    · cases ht
    · exact hk

end Sys2Proof.Machine

/-! ## The invariants at reset (70_reset_and_hazards.md R149) -/

namespace Sys2Proof.Machine

theorem resultIsByte_reset : ResultIsByte State.reset := by decide

/-- Right after reset the engine is idle with an empty latch (log 5). -/
theorem engineOK_reset : EngineOK State.reset := engineOK_of_idle rfl rfl

/-- Reset leaves phase EMPTY, where the symbol and penalty registers have their reset values. -/
theorem geometryOK_reset : GeometryOK State.reset := (if_pos rfl).mpr ⟨rfl, rfl⟩

/-- No mask is applied in phase EMPTY, and reset leaves the mask registers zero. -/
theorem maskRegsOK_reset : MaskRegsOK State.reset := (if_neg Bool.false_ne_true).mpr ⟨rfl, rfl, rfl⟩

/-- In phase EMPTY nothing is said of the grids, so the zeros of log 4 play no part. -/
theorem gridsOK_reset : GridsOK State.reset := trivial

/-- Settles O57: the six invariants one by one, the capacity from `capacityOK_reset`. -/
theorem resetMeetsInvariants : Obligations.ResetMeetsInvariants where
  capacity := capacityOK_reset
  result := resultIsByte_reset
  engine := engineOK_reset
  geometry := geometryOK_reset
  maskRegs := maskRegsOK_reset
  grids := gridsOK_reset

end Sys2Proof.Machine
